-- ==== Sys2Proof/Word.lean ====
section
/-! DEFINITION. The word types of the CORE (10_state.md R15, 30_encoding.md R50): plain bit vectors. -/

namespace Sys2Proof

/-- An 8-bit value: a data register, a memory cell, a timer, the immediate `nn`. -/
abbrev Byte := BitVec 8

/-- A 16-bit value: `PC`, `I`, a stack entry, `KEYS`, an opcode. -/
abbrev Word := BitVec 16

/-- A 4-bit field of an opcode: a register index `x` or `y`, or the sprite height `n` (R50). -/
abbrev Nibble := BitVec 4

/-- The 12-bit address field `nnn` (R50). -/
abbrev Addr := BitVec 12

end Sys2Proof
end

