-- ==== Sys2Proof/Syntax.lean ====
section
/-! DEFINITION. The instruction kinds of 30_encoding.md R52: one constructor per row of opcode_table.json, with every
field of the opcode that the row leaves free, used or not, so that an instruction determines its word. -/

namespace Sys2Proof

/-- The decoder's 36 kinds (R52). `x`, `y` are register indices, `n` the sprite height, `nn` the byte and `nnn` the
address of R50. -/
inductive Instr where
  /-- `00E0` CLS -/
  | cls
  /-- `00EE` RET -/
  | ret
  /-- `0NNN` SYS NNN, the legacy machine-code call -/
  | sys (nnn : Addr)
  /-- `1NNN` JP NNN -/
  | jp (nnn : Addr)
  /-- `2NNN` CALL NNN -/
  | call (nnn : Addr)
  /-- `3XNN` SE Vx,NN -/
  | seNn (x : Nibble) (nn : Byte)
  /-- `4XNN` SNE Vx,NN -/
  | sneNn (x : Nibble) (nn : Byte)
  /-- `5XY0` SE Vx,Vy -/
  | seVy (x y : Nibble)
  /-- `6XNN` LD Vx,NN -/
  | ldNn (x : Nibble) (nn : Byte)
  /-- `7XNN` ADD Vx,NN -/
  | addNn (x : Nibble) (nn : Byte)
  /-- `8XY0` LD Vx,Vy -/
  | ldVy (x y : Nibble)
  /-- `8XY1` OR Vx,Vy -/
  | orVy (x y : Nibble)
  /-- `8XY2` AND Vx,Vy -/
  | andVy (x y : Nibble)
  /-- `8XY3` XOR Vx,Vy -/
  | xorVy (x y : Nibble)
  /-- `8XY4` ADD Vx,Vy -/
  | addVy (x y : Nibble)
  /-- `8XY5` SUB Vx,Vy -/
  | sub (x y : Nibble)
  /-- `8XY6` SHR Vx; the `y` field is in the encoding and ignored (R92) -/
  | shr (x y : Nibble)
  /-- `8XY7` SUBN Vx,Vy -/
  | subn (x y : Nibble)
  /-- `8XYE` SHL Vx; the `y` field is in the encoding and ignored (R94) -/
  | shl (x y : Nibble)
  /-- `9XY0` SNE Vx,Vy -/
  | sneVy (x y : Nibble)
  /-- `ANNN` LD I,NNN -/
  | ldI (nnn : Addr)
  /-- `BNNN` JP V0,NNN -/
  | jpV0 (nnn : Addr)
  /-- `CXNN` RND Vx,NN -/
  | rnd (x : Nibble) (nn : Byte)
  /-- `DXYN` DRW Vx,Vy,N -/
  | drw (x y n : Nibble)
  /-- `EX9E` SKP Vx -/
  | skp (x : Nibble)
  /-- `EXA1` SKNP Vx -/
  | sknp (x : Nibble)
  /-- `FX07` LD Vx,DT -/
  | ldVxDt (x : Nibble)
  /-- `FX0A` LD Vx,K -/
  | ldVxK (x : Nibble)
  /-- `FX15` LD DT,Vx -/
  | ldDtVx (x : Nibble)
  /-- `FX18` LD ST,Vx -/
  | ldStVx (x : Nibble)
  /-- `FX1E` ADD I,Vx -/
  | addIVx (x : Nibble)
  /-- `FX29` LD F,Vx -/
  | ldFVx (x : Nibble)
  /-- `FX33` LD B,Vx -/
  | ldBVx (x : Nibble)
  /-- `FX55` LD [I],Vx -/
  | ldMemVx (x : Nibble)
  /-- `FX65` LD Vx,[I] -/
  | ldVxMem (x : Nibble)
  /-- every other word: UNRECOGNIZED, with the word it was decoded from (log entry 9) -/
  | unrecognized (opcode : Word)
deriving DecidableEq, Repr

end Sys2Proof
end

