-- ==== Sys2Proof/WellFormed.lean ====
section
/-! DEFINITION. Which instructions have a word of their own: the side conditions of the table rows SYS (R54) and
UNRECOGNIZED (R57). Every other combination of fields is well formed (R59). -/

namespace Sys2Proof

/-- The UNRECOGNIZED space, family by family as the table of R57 lists it. -/
def inUnrecognizedSpace (opcode : Word) : Bool :=
  let op := opcode.extractLsb' 12 4
  let n := opcode.extractLsb' 0 4
  let nn := opcode.extractLsb' 0 8
  (op == 0x5#4 && n != 0x0#4) ||
  (op == 0x8#4 && (n == 0x8#4 || n == 0x9#4 || n == 0xA#4 || n == 0xB#4 || n == 0xC#4 || n == 0xD#4 || n == 0xF#4)) ||
  (op == 0x9#4 && n != 0x0#4) ||
  (op == 0xE#4 && !(nn == 0x9E#8 || nn == 0xA1#8)) ||
  (op == 0xF#4 && !(nn == 0x07#8 || nn == 0x0A#8 || nn == 0x15#8 || nn == 0x18#8 || nn == 0x1E#8 || nn == 0x29#8 || nn == 0x33#8 ||
    nn == 0x55#8 || nn == 0x65#8))

/-- An instruction that some opcode decodes to. `SYS` excludes the words of `CLS` and `RET` (R54); `UNRECOGNIZED`
carries a word of its space (R57). -/
def Instr.wf : Instr → Bool
  | .sys nnn => nnn != 0x0E0#12 && nnn != 0x0EE#12
  | .unrecognized opcode => inUnrecognizedSpace opcode
  | .cls | .ret | .jp _ | .call _ | .seNn _ _ | .sneNn _ _ | .seVy _ _ | .ldNn _ _ | .addNn _ _ | .ldVy _ _
  | .orVy _ _ | .andVy _ _ | .xorVy _ _ | .addVy _ _ | .sub _ _ | .shr _ _ | .subn _ _ | .shl _ _ | .sneVy _ _
  | .ldI _ | .jpV0 _ | .rnd _ _ | .drw _ _ _ | .skp _ | .sknp _ | .ldVxDt _ | .ldVxK _ | .ldDtVx _ | .ldStVx _
  | .addIVx _ | .ldFVx _ | .ldBVx _ | .ldMemVx _ | .ldVxMem _ => true

end Sys2Proof
end

