-- ==== Sys2Proof/Decode.lean ====
section
/-! DEFINITION. The `chip8_decoder` block (00_scope.md R8, 30_encoding.md R50, R53 to R58), the encoder written from the
same table (R52), and the two-byte layout of an instruction (20_memory.md R35). -/

namespace Sys2Proof

/-- The fields every opcode is cut into, used or not (R50). -/
structure Fields where
  op : Nibble
  x : Nibble
  y : Nibble
  n : Nibble
  nn : Byte
  nnn : Addr
deriving DecidableEq, Repr

/-- Field extraction, R50: bit 0 is the least significant bit. -/
def fieldsOf (opcode : Word) : Fields where
  op := opcode.extractLsb' 12 4
  x := opcode.extractLsb' 8 4
  y := opcode.extractLsb' 4 4
  n := opcode.extractLsb' 0 4
  nn := opcode.extractLsb' 0 8
  nnn := opcode.extractLsb' 0 12

/-- Family 0, keyed by the whole low 12 bits (R54). -/
def decodeFamily0 (f : Fields) : Instr :=
  if f.nnn = 0x0E0#12 then .cls
  else if f.nnn = 0x0EE#12 then .ret
  else .sys f.nnn

/-- Family 8, keyed by the low nibble (R55). -/
def decodeFamily8 (opcode : Word) (f : Fields) : Instr :=
  if f.n = 0x0#4 then .ldVy f.x f.y
  else if f.n = 0x1#4 then .orVy f.x f.y
  else if f.n = 0x2#4 then .andVy f.x f.y
  else if f.n = 0x3#4 then .xorVy f.x f.y
  else if f.n = 0x4#4 then .addVy f.x f.y
  else if f.n = 0x5#4 then .sub f.x f.y
  else if f.n = 0x6#4 then .shr f.x f.y
  else if f.n = 0x7#4 then .subn f.x f.y
  else if f.n = 0xE#4 then .shl f.x f.y
  else .unrecognized opcode

/-- Family E, keyed by the low byte (R56). -/
def decodeFamilyE (opcode : Word) (f : Fields) : Instr :=
  if f.nn = 0x9E#8 then .skp f.x
  else if f.nn = 0xA1#8 then .sknp f.x
  else .unrecognized opcode

/-- Family F, keyed by the low byte (R56). -/
def decodeFamilyF (opcode : Word) (f : Fields) : Instr :=
  if f.nn = 0x07#8 then .ldVxDt f.x
  else if f.nn = 0x0A#8 then .ldVxK f.x
  else if f.nn = 0x15#8 then .ldDtVx f.x
  else if f.nn = 0x18#8 then .ldStVx f.x
  else if f.nn = 0x1E#8 then .addIVx f.x
  else if f.nn = 0x29#8 then .ldFVx f.x
  else if f.nn = 0x33#8 then .ldBVx f.x
  else if f.nn = 0x55#8 then .ldMemVx f.x
  else if f.nn = 0x65#8 then .ldVxMem f.x
  else .unrecognized opcode

/-- The decoding algorithm on an opcode's fields, R53: by the family, then by the selector inside it. -/
def decodeFields (opcode : Word) (f : Fields) : Instr :=
  if f.op = 0x0#4 then decodeFamily0 f
  else if f.op = 0x1#4 then .jp f.nnn
  else if f.op = 0x2#4 then .call f.nnn
  else if f.op = 0x3#4 then .seNn f.x f.nn
  else if f.op = 0x4#4 then .sneNn f.x f.nn
  else if f.op = 0x5#4 then (if f.n = 0x0#4 then .seVy f.x f.y else .unrecognized opcode)
  else if f.op = 0x6#4 then .ldNn f.x f.nn
  else if f.op = 0x7#4 then .addNn f.x f.nn
  else if f.op = 0x8#4 then decodeFamily8 opcode f
  else if f.op = 0x9#4 then (if f.n = 0x0#4 then .sneVy f.x f.y else .unrecognized opcode)
  else if f.op = 0xA#4 then .ldI f.nnn
  else if f.op = 0xB#4 then .jpV0 f.nnn
  else if f.op = 0xC#4 then .rnd f.x f.nn
  else if f.op = 0xD#4 then .drw f.x f.y f.n
  else if f.op = 0xE#4 then decodeFamilyE opcode f
  else decodeFamilyF opcode f

/-- The decoder, R8, R53: total, no error path (R58). -/
def decode (opcode : Word) : Instr := decodeFields opcode (fieldsOf opcode)

/-- Why bytes are not an instruction: R49 gives every instruction exactly two bytes. -/
inductive DecodeError where
  /-- fewer than two bytes are left -/
  | truncated
deriving DecidableEq, Repr

/-- The two bytes of an opcode as memory holds them: the high byte first (R35). -/
def opcodeOfBytes (hi lo : Byte) : Word := hi ++ lo

/-- The bytes of an opcode in address order (R35). -/
def bytesOfOpcode (opcode : Word) : List Byte := [opcode.extractLsb' 8 8, opcode.extractLsb' 0 8]

/-- Decoding from bytes: the instruction and the bytes after it. Every two bytes decode (R58); fewer are refused by
name. -/
def decodeBytes : List Byte → Except DecodeError (Instr × List Byte)
  | hi :: lo :: rest => .ok (decode (opcodeOfBytes hi lo), rest)
  | [_] => .error .truncated
  | [] => .error .truncated

/-- The word of an instruction, from the patterns of R52. -/
def encode : Instr → Word
  | .cls => 0x00E0#16
  | .ret => 0x00EE#16
  | .sys nnn => 0x0#4 ++ nnn
  | .jp nnn => 0x1#4 ++ nnn
  | .call nnn => 0x2#4 ++ nnn
  | .seNn x nn => 0x3#4 ++ x ++ nn
  | .sneNn x nn => 0x4#4 ++ x ++ nn
  | .seVy x y => 0x5#4 ++ x ++ y ++ 0x0#4
  | .ldNn x nn => 0x6#4 ++ x ++ nn
  | .addNn x nn => 0x7#4 ++ x ++ nn
  | .ldVy x y => 0x8#4 ++ x ++ y ++ 0x0#4
  | .orVy x y => 0x8#4 ++ x ++ y ++ 0x1#4
  | .andVy x y => 0x8#4 ++ x ++ y ++ 0x2#4
  | .xorVy x y => 0x8#4 ++ x ++ y ++ 0x3#4
  | .addVy x y => 0x8#4 ++ x ++ y ++ 0x4#4
  | .sub x y => 0x8#4 ++ x ++ y ++ 0x5#4
  | .shr x y => 0x8#4 ++ x ++ y ++ 0x6#4
  | .subn x y => 0x8#4 ++ x ++ y ++ 0x7#4
  | .shl x y => 0x8#4 ++ x ++ y ++ 0xE#4
  | .sneVy x y => 0x9#4 ++ x ++ y ++ 0x0#4
  | .ldI nnn => 0xA#4 ++ nnn
  | .jpV0 nnn => 0xB#4 ++ nnn
  | .rnd x nn => 0xC#4 ++ x ++ nn
  | .drw x y n => 0xD#4 ++ x ++ y ++ n
  | .skp x => 0xE#4 ++ x ++ 0x9E#8
  | .sknp x => 0xE#4 ++ x ++ 0xA1#8
  | .ldVxDt x => 0xF#4 ++ x ++ 0x07#8
  | .ldVxK x => 0xF#4 ++ x ++ 0x0A#8
  | .ldDtVx x => 0xF#4 ++ x ++ 0x15#8
  | .ldStVx x => 0xF#4 ++ x ++ 0x18#8
  | .addIVx x => 0xF#4 ++ x ++ 0x1E#8
  | .ldFVx x => 0xF#4 ++ x ++ 0x29#8
  | .ldBVx x => 0xF#4 ++ x ++ 0x33#8
  | .ldMemVx x => 0xF#4 ++ x ++ 0x55#8
  | .ldVxMem x => 0xF#4 ++ x ++ 0x65#8
  | .unrecognized opcode => opcode

/-- The opcode the host numbers `w` in `nbits` bits: the bits above `nbits` are zero. -/
def tableOpcode (nbits w : Nat) : Word := BitVec.ofNat 16 (w % 2 ^ nbits)

/-- What the decoder reads from the bytes of a table word, laid out in memory order. -/
def decodeTableWord (nbits w : Nat) : Option Instr :=
  match decodeBytes (bytesOfOpcode (tableOpcode nbits w)) with
  | .ok (i, _) => some i
  | .error _ => none

end Sys2Proof
end

