-- ==== Sys2Proof/Config.lean ====
section
/-! DEFINITION. What an implementation fixes (00_scope.md R6) and the one free value, the random byte (10_state.md R30). -/

namespace Sys2Proof

/-- `MEM_SIZE`, R6: 4096 bytes. -/
@[simp] abbrev Config.memSize : Nat := 4096

/-- `PROG_BASE`, R6: the program image starts here. -/
@[simp] abbrev Config.progBase : Nat := 0x200

/-- `MAX_PROG_LEN`, R6: `MEM_SIZE - PROG_BASE`. -/
@[simp] abbrev Config.maxProgLen : Nat := 3584

/-- `PC_RESET`, R6 (decision D3). -/
@[simp] abbrev Config.pcReset : Word := 0x0200

/-- `FONT`, R41: the spec leaves the 80 bytes OPEN and gives this customary table as the default (decision D22).
DESIGN CHOICE, unsafe (log entry 1): a claim that names a font byte rests on the default.
One line a glyph, digits 0 to F, top row first. -/
def Config.font : List Byte :=
  [0xF0, 0x90, 0x90, 0x90, 0xF0] ++
  [0x20, 0x60, 0x20, 0x20, 0x70] ++
  [0xF0, 0x10, 0xF0, 0x80, 0xF0] ++
  [0xF0, 0x10, 0xF0, 0x10, 0xF0] ++
  [0x90, 0x90, 0xF0, 0x10, 0x10] ++
  [0xF0, 0x80, 0xF0, 0x10, 0xF0] ++
  [0xF0, 0x80, 0xF0, 0x90, 0xF0] ++
  [0xF0, 0x10, 0x20, 0x40, 0x40] ++
  [0xF0, 0x90, 0xF0, 0x90, 0xF0] ++
  [0xF0, 0x90, 0xF0, 0x10, 0xF0] ++
  [0xF0, 0x90, 0xF0, 0x90, 0x90] ++
  [0xE0, 0x90, 0xE0, 0x90, 0xE0] ++
  [0xF0, 0x80, 0x80, 0x80, 0xF0] ++
  [0xE0, 0x90, 0x90, 0x90, 0xE0] ++
  [0xF0, 0x80, 0xF0, 0x80, 0xF0] ++
  [0xF0, 0x80, 0xF0, 0x80, 0x80]

/-- The random byte the host offers with a `Tick` (R30, R153, decision D24), as a FREE VALUE: no body, so nothing can
be proved of it. Applied to `State.draws`, which counts the bytes used (log entry 2, safe). -/
opaque Config.rnd : Nat → Byte

end Sys2Proof
end

