-- ==== Sys2Proof/Machine/State.lean ====
section
/-! DEFINITION. The state of the CORE (10_state.md R15), its reset value (R32 with the empty image) and the ways a step
can stop. -/

namespace Sys2Proof.Machine

open Sys2Proof

/-- Memory as data: the cells that differ from what `Create` of the empty image leaves there, by rising address (log
entry 5). -/
abbrev Memory := List Host.Cell

/-- The pixel store, R15, R106: 32 rows of 64 bits; pixel `(px, py)` is bit `px` of row `py`. -/
abbrev Display := Vector (BitVec 64) 32

/-- The fault codes of 60_exceptions.md R134. Codes 6 and 7 are never produced, so they have no constructor
(log entry 8). -/
inductive FaultCode where
  /-- code 0: no fault, the machine runs -/
  | running
  /-- code 1: `RET` with an empty stack (R135) -/
  | stackUnderflow
  /-- code 2: `CALL` with a full stack (R136) -/
  | stackOverflow
  /-- code 3: `SYS NNN`, always (R138) -/
  | unimplementedSys
  /-- code 4: `LD Vx,K`, always (R139) -/
  | unimplementedKeyWait
  /-- code 5: `Create` of an image longer than 3584 bytes (R140) -/
  | loadError
deriving DecidableEq, Repr

/-- The complete state of the CORE, R15, and the model's own `draws`. -/
structure State where
  /-- `MEM`, R29 -/
  mem : Memory
  /-- `V[0..15]`, R16 -/
  v : Vector Byte 16
  /-- `PC`, R18 -/
  pc : Word
  /-- `I`, R19 -/
  i : Word
  /-- `STACK[0..15]`, R20 -/
  stack : Vector Word 16
  /-- `SP`, R20: the number of entries in use, 0 to 16 -/
  sp : Fin 17
  /-- `DT`, R23 -/
  dt : Byte
  /-- `ST`, R24 -/
  st : Byte
  /-- `DISP`, R27 -/
  disp : Display
  /-- `KEYS`, R28: bit `k` is key `k` held -/
  keys : Word
  /-- `PAUSED`, R25 -/
  paused : Bool
  /-- `FAULT`, R26 -/
  fault : FaultCode
  /-- the model's own field: how many random bytes have been used (log entry 2) -/
  draws : Nat
deriving DecidableEq, Repr

/-- The state after `Create` of the empty image, R32 (log entry 4). `draws` starts at 0 (DESIGN CHOICE, log entry 2). -/
def State.reset : State where
  mem := []
  v := Vector.replicate 16 0
  pc := Config.pcReset
  i := 0
  stack := Vector.replicate 16 0
  sp := 0
  dt := 0
  st := 0
  disp := Vector.replicate 32 0
  keys := 0
  paused := false
  fault := .running
  draws := 0

/-- The ways a step ends in a model fault: none. Every condition the spec calls a fault has a described effect,
`FAULT <- code` (R137), and is a next state of the model (log entry 6, safe). -/
inductive Fault where
deriving DecidableEq, Repr

/-- The ways a step is refused. -/
inductive Refusal where
  /-- An instruction without a meaning; raised only by an arm of `exec` that names it. No arm does (safe). -/
  | notModelled (mnemonic : String)
deriving DecidableEq, Repr

end Sys2Proof.Machine
end

