-- ==== Sys2Proof/Machine/Ops.lean ====
section
/-! DEFINITION. The named operations on the state: memory (20_memory.md), registers (10_state.md), the stack (R21, R22),
the program counter (R18, R66) and fault entry (60_exceptions.md R137). -/

namespace Sys2Proof.Machine

open Sys2Proof

/-- The answer of a meaning: a next state, or one of the stops of `State.lean`. -/
abbrev Result := Host.Outcome State Fault Refusal

/-! ### Memory, R33, R34 -/

/-- What an address holds that no entry names: the content after `Create` of the empty image (R32), the font at
0x000 to 0x04F (R39, R41) and zero elsewhere (log entries 1, 5). -/
def Memory.unlisted (a : Nat) : Byte := Config.font.getD a 0

/-- The byte at an address below 4096. -/
def Memory.read : Memory → Nat → Byte
  | [], a => Memory.unlisted a
  | (k, b) :: rest, a => if k = a then b else Memory.read rest a

/-- Put an entry in front, unless it says what an unlisted address reads as. -/
def Memory.consCell (a : Nat) (b : Byte) (m : Memory) : Memory :=
  if b = Memory.unlisted a then m else (a, b) :: m

/-- Store a byte at an address below 4096, keeping the canonical form. -/
def Memory.write : Memory → Nat → Byte → Memory
  | [], a, b => Memory.consCell a b []
  | (k, c) :: rest, a, b =>
    if a < k then Memory.consCell a b ((k, c) :: rest)
    else if a = k then Memory.consCell a b rest
    else (k, c) :: Memory.write rest a b

/-- The canonical form from address `lo` on: addresses strictly rising and below 4096 (R29), no entry equal to what an
unlisted address reads as. -/
def Memory.wfFrom (lo : Nat) : Memory → Bool
  | [] => true
  | (a, b) :: rest =>
    decide (lo ≤ a) && decide (a < Config.memSize) && decide (b ≠ Memory.unlisted a) && Memory.wfFrom (a + 1) rest

/-- The canonical form of a memory. -/
def Memory.wf (m : Memory) : Bool := Memory.wfFrom 0 m

/-- The cell an address of any width reaches: `MEM[a mod 4096]` (R34). -/
def cellOf (a : Nat) : Nat := a % Config.memSize

/-- `MemRead(addr, 1)`, R33. -/
def State.memRead (s : State) (a : Nat) : Byte := s.mem.read (cellOf a)

/-- Replace the whole of `MEM`. -/
def State.setMem (m : Memory) (s : State) : State := { s with mem := m }

/-- `MemWrite(addr, 1, v)`, R33. -/
def State.memWrite (a : Nat) (b : Byte) (s : State) : State := s.setMem (s.mem.write (cellOf a) b)

/-! ### Registers -/

/-- `V[x]`, R16. -/
def State.reg (s : State) (x : Nibble) : Byte := s.v[x.toNat]'x.isLt

/-- `V[x] <- b`, R16: no register is hardwired. -/
def State.setReg (x : Nibble) (b : Byte) (s : State) : State := { s with v := s.v.set x.toNat b x.isLt }

/-- `PC <- w`. -/
def State.setPc (w : Word) (s : State) : State := { s with pc := w }

/-- `PC` advances normally, R66: `PC <- trunc_16(PC + 2)`. -/
def State.advance (s : State) : State := s.setPc (s.pc + 2)

/-- The end of a skip instruction, R66, R81: `PC + 4` when the condition holds, else `PC + 2`. -/
def State.skipIf (c : Bool) (s : State) : State := s.setPc (if c then s.pc + 4 else s.pc + 2)

/-- `I <- w`, R19. -/
def State.setI (w : Word) (s : State) : State := { s with i := w }

/-- `DT <- b`, R23. -/
def State.setDt (b : Byte) (s : State) : State := { s with dt := b }

/-- `ST <- b`, R24. -/
def State.setSt (b : Byte) (s : State) : State := { s with st := b }

/-- Replace the whole of `DISP`. -/
def State.setDisp (d : Display) (s : State) : State := { s with disp := d }

/-- `KEYS <- k`, by the host only (R146). -/
def State.setKeys (k : Word) (s : State) : State := { s with keys := k }

/-- `PAUSED <- b`, by the host only (R148). -/
def State.setPaused (b : Bool) (s : State) : State := { s with paused := b }

/-- `FAULT <- c`. -/
def State.setFault (c : FaultCode) (s : State) : State := { s with fault := c }

/-- The random byte offered to this tick (R30, R95): the free value at the current draw. -/
def State.rnd (s : State) : Byte := Config.rnd s.draws

/-- One random byte has been used: the next draw is a fresh one. -/
def State.nextDraw (s : State) : State := { s with draws := s.draws + 1 }

/-! ### The stack, R20 to R22 -/

/-- `Push(v)`, R21: none when all 16 entries are in use, which is `StackOverflow`. -/
def State.push (w : Word) (s : State) : Option State :=
  if h : s.sp.val < 16 then
    some { s with stack := s.stack.set s.sp.val w h, sp := ⟨s.sp.val + 1, Nat.succ_lt_succ h⟩ }
  else none

/-- `Pop()`, R22: none when the stack is empty, which is `StackUnderflow`; the entry is not erased (R20). -/
def State.pop (s : State) : Option (Word × State) :=
  if h : 0 < s.sp.val then
    some (s.stack[s.sp.val - 1]'(by have := s.sp.isLt; omega), { s with sp := ⟨s.sp.val - 1, by have := s.sp.isLt; omega⟩ })
  else none

/-! ### Fault entry, R137 -/

/-- `raise <Fault>`, R137: the cycle ends and `FAULT <- code` is its only state change. There is no return from a fault:
only `Create` leaves the halted state (R143). -/
def raise (c : FaultCode) (s : State) : Result := .next (s.setFault c)

/-- The 3-bit value of the `FAULT` register, R134. -/
def FaultCode.bits : FaultCode → BitVec 3
  | .running => 0
  | .stackUnderflow => 1
  | .stackOverflow => 2
  | .unimplementedSys => 3
  | .unimplementedKeyWait => 4
  | .loadError => 5

end Sys2Proof.Machine
end

