-- ==== Sys2Proof/Machine/Operands.lean ====
section
/-! DEFINITION. The operand forms: the one addressing mode (43_index_memory.md R104), the low-nibble indices (R100, R131),
the decimal digits (R101), and the register ranges of the bulk transfers (R102, R103). -/

namespace Sys2Proof.Machine

open Sys2Proof

/-- The address `I + k` of a data access, formed at full precision; memory reduces it modulo 4096 (R104). -/
def State.indexed (s : State) (k : Nat) : Nat := s.i.toNat + k

/-- `v[3:0]`, R100, R131. -/
def lowNibble (b : Byte) : Nibble := b.extractLsb' 0 4

/-- The address of the glyph of a digit, R100: `5 * d`. -/
def glyphAddr (d : Nibble) : Word := BitVec.ofNat 16 (5 * d.toNat)

/-- Whether key `k` is held: `KEYS[k] = 1`, R128. -/
def State.keyHeld (s : State) (k : Nibble) : Bool := s.keys.getLsbD k.toNat

/-- The hundreds digit, R101. -/
def hundreds (b : Byte) : Byte := BitVec.ofNat 8 (b.toNat / 100)

/-- The tens digit, R101. -/
def tens (b : Byte) : Byte := BitVec.ofNat 8 (b.toNat / 10 % 10)

/-- The ones digit, R101. -/
def ones (b : Byte) : Byte := BitVec.ofNat 8 (b.toNat % 10)

/-- `V[k]` for a loop counter `k` of 0 to 15. -/
def State.regAt (s : State) (k : Nat) : Byte := s.reg (BitVec.ofNat 4 k)

/-- The loop of R102 over the first `count` registers: `MemWrite(I + k, 1, V[k])`, `k` ascending. -/
def State.storeRegs (count : Nat) (s : State) : State :=
  (List.range count).foldl (fun t k => t.memWrite (s.indexed k) (s.regAt k)) s

/-- The loop of R103 over the first `count` registers: `V[k] <- MemRead(I + k, 1)`, `k` ascending. -/
def State.loadRegs (count : Nat) (s : State) : State :=
  (List.range count).foldl (fun t k => t.setReg (BitVec.ofNat 4 k) (s.memRead (s.indexed k))) s

end Sys2Proof.Machine
end

