-- ==== Sys2Proof/Machine/TimersKeypad.lean ====
section
/-! DEFINITION. The block `timer_countdown` and the timer and keypad instructions of 45_timers_keypad.md. -/

namespace Sys2Proof.Machine

open Sys2Proof

/-- One timer's decrement: by 1 while above 0, never below 0 (R120). -/
def countdown (t : Byte) : Byte := if t = 0 then 0 else t - 1

/-- `timer_countdown(dt, st)`, R120. -/
def timerCountdown (dt st : Byte) : Byte × Byte := (countdown dt, countdown st)

/-- The output `sound_active`, R123: `ST != 0`. -/
def State.soundActive (s : State) : Bool := s.st != 0

/-- `LD Vx,DT`, R124: the value before this cycle's decrement. -/
def execLdVxDt (x : Nibble) (s : State) : Result := .next (s.setReg x s.dt).advance

/-- `LD DT,Vx`, R125. -/
def execLdDtVx (x : Nibble) (s : State) : Result := .next (s.setDt (s.reg x)).advance

/-- `LD ST,Vx`, R126. -/
def execLdStVx (x : Nibble) (s : State) : Result := .next (s.setSt (s.reg x)).advance

/-- `SKP Vx`, R129: the key index is the low nibble (R131). -/
def execSkp (x : Nibble) (s : State) : Result := .next (s.skipIf (s.keyHeld (lowNibble (s.reg x))))

/-- `SKNP Vx`, R130. -/
def execSknp (x : Nibble) (s : State) : Result := .next (s.skipIf (!s.keyHeld (lowNibble (s.reg x))))

/-- `LD Vx,K`, R132: raises `UnimplementedKeyWait`, whatever `KEYS` holds. -/
def execLdVxK (_x : Nibble) (s : State) : Result := raise .unimplementedKeyWait s

end Sys2Proof.Machine
end

