-- ==== Sys2Proof/Machine/Cycle.lean ====
section
/-! DEFINITION. The parts of one tick that stand around `execute` (40_cycle_and_system.md R63): what suspends it, the
fetch, and the timer block at its end. -/

namespace Sys2Proof.Machine

open Sys2Proof

/-- A tick does nothing: halted (R143) or paused (R64). -/
def State.suspended (s : State) : Bool := s.fault != .running || s.paused

/-- The fetch, R35: the byte at `PC` is the high byte, the byte at `PC + 1` the low byte. -/
def State.fetchOpcode (s : State) : Word := opcodeOfBytes (s.memRead s.pc.toNat) (s.memRead (s.pc.toNat + 1))

/-- The fetched and decoded instruction, R63. -/
def State.fetchInstr (s : State) : Instr := decode s.fetchOpcode

/-- The timer block on a state: `(DT, ST) <- timer_countdown(DT, ST)`, R63. -/
def State.tickTimers (s : State) : State :=
  let p := timerCountdown s.dt s.st
  (s.setDt p.1).setSt p.2

/-- The end of a cycle, R67, R121: the timer block runs exactly when the cycle has raised no fault. -/
def State.endCycle (s : State) : State := if s.fault = .running then s.tickTimers else s

/-- Store an opcode where the next fetch reads it. -/
def State.placeOpcode (opcode : Word) (s : State) : State :=
  (s.memWrite s.pc.toNat (opcode.extractLsb' 8 8)).memWrite (s.pc.toNat + 1) (opcode.extractLsb' 0 8)

/-- Not halted and not paused: what a tick needs in order to fetch (R63). -/
def State.awake (s : State) : State := (s.setFault .running).setPaused false

end Sys2Proof.Machine
end

