-- ==== Sys2Proof/Machine/ControlFlow.lean ====
section
/-! DEFINITION. The control-transfer instructions of 41_control_flow.md. -/

namespace Sys2Proof.Machine

open Sys2Proof

/-- `RET`, R73: `PC` is the popped entry; an empty stack raises `StackUnderflow`. -/
def execRet (s : State) : Result :=
  match s.pop with
  | some (t, s') => .next (s'.setPc t)
  | none => raise .stackUnderflow s

/-- `JP NNN`, R74. -/
def execJp (nnn : Addr) (s : State) : Result := .next (s.setPc (nnn.setWidth 16))

/-- `CALL NNN`, R75: push `PC + 2`; a full stack raises `StackOverflow`. -/
def execCall (nnn : Addr) (s : State) : Result :=
  match s.push (s.pc + 2) with
  | some s' => .next (s'.setPc (nnn.setWidth 16))
  | none => raise .stackOverflow s

/-- `SE Vx,NN`, R76. -/
def execSeNn (x : Nibble) (nn : Byte) (s : State) : Result := .next (s.skipIf (s.reg x == nn))

/-- `SNE Vx,NN`, R77. -/
def execSneNn (x : Nibble) (nn : Byte) (s : State) : Result := .next (s.skipIf (s.reg x != nn))

/-- `SE Vx,Vy`, R78. -/
def execSeVy (x y : Nibble) (s : State) : Result := .next (s.skipIf (s.reg x == s.reg y))

/-- `SNE Vx,Vy`, R79. -/
def execSneVy (x y : Nibble) (s : State) : Result := .next (s.skipIf (s.reg x != s.reg y))

/-- `JP V0,NNN`, R80: always register 0, the sum kept in 16 bits. -/
def execJpV0 (nnn : Addr) (s : State) : Result :=
  .next (s.setPc (nnn.setWidth 16 + (s.reg 0x0#4).setWidth 16))

end Sys2Proof.Machine
end

