-- ==== Sys2Proof/Machine/Flags.lean ====
section
/-! DEFINITION. The flag computations (42_load_alu.md R90 to R94, R96) and the order of the flag write (R97). -/

namespace Sys2Proof.Machine

open Sys2Proof

/-- A flag write stores the byte 0x00 or 0x01, never any other value (R17). -/
def flagByte (c : Bool) : Byte := if c then 0x01#8 else 0x00#8

/-- The index of the flag register `VF`, R17. -/
abbrev flagReg : Nibble := 0xF#4

/-- Register add, R90: the sum of the two bytes, at full precision, exceeds 255. -/
def addFlag (a b : Byte) : Bool := decide (255 < a.toNat + b.toNat)

/-- Subtract, R91 and R93: the minuend is strictly greater than the subtrahend (90_conflicts.md C1). -/
def subFlag (minuend subtrahend : Byte) : Bool := decide (subtrahend.toNat < minuend.toNat)

/-- Shift right, R92: the bit shifted out, `a[0]`. -/
def shrFlag (a : Byte) : Bool := a.getLsbD 0

/-- Shift left, R94: the bit shifted out, `a[7]`. -/
def shlFlag (a : Byte) : Bool := a.getLsbD 7

/-- `V[0xF] <- flag`. -/
def State.setFlag (c : Bool) (s : State) : State := s.setReg flagReg (flagByte c)

/-- The two writes of a flag-writing instruction in the order of R97: the result to `V[x]`, then the flag to `V[0xF]`,
which wins when `x = 0xF`. -/
def State.setResultFlag (x : Nibble) (result : Byte) (c : Bool) (s : State) : State :=
  (s.setReg x result).setFlag c

end Sys2Proof.Machine
end

