-- ==== Sys2Proof/Machine/Display.lean ====
section
/-! DEFINITION. The blocks `display_buffer_xor` and `sprite_collision_detector` and the instructions CLS and DRW
(44_display.md). -/

namespace Sys2Proof.Machine

open Sys2Proof

/-- `DISP[py][px]`, R106. -/
def Display.pixel (d : Display) (px : Fin 64) (py : Fin 32) : Bool := (d[py.val]'py.isLt).getLsbD px.val

/-- The operation `clear`, R107. -/
def Display.clear : Display := Vector.replicate 32 0

/-- The operation `toggle(px, py)`, R108, as a change of the buffer; `pix_after` is the pixel read afterwards. -/
def Display.toggle (d : Display) (px : Fin 64) (py : Fin 32) : Display :=
  d.set py.val ((d[py.val]'py.isLt) ^^^ (1#64 <<< px.val)) py.isLt

/-- What one draw carries: the buffer, and the detector's bit, which lives only during the draw (R11, R110). -/
structure Drawing where
  disp : Display
  flag : Bool
deriving DecidableEq, Repr

/-- The column a sprite bit lands on: `min(x0 + col, 63)`, R116. -/
def clampX (a : Nat) : Fin 64 := ⟨min a 63, by omega⟩

/-- The row a sprite bit lands on: `min(y0 + row, 31)`, R116. -/
def clampY (a : Nat) : Fin 32 := ⟨min a 31, by omega⟩

/-- Whether the sprite row `b` has its bit at offset `col` set; bit 7 is the leftmost (R115). -/
def spriteBit (b : Byte) (col : Nat) : Bool := b.getLsbD (7 - col)

/-- One toggle and the detector's update `flag <- flag | pix_after`, R108, R111. -/
def Drawing.hit (g : Drawing) (px : Fin 64) (py : Fin 32) : Drawing :=
  let d := g.disp.toggle px py
  { disp := d, flag := g.flag || d.pixel px py }

/-- One sprite bit, R114: a clear bit issues no operation at all (R108). -/
def drawBit (b : Byte) (x0 y : Nat) (g : Drawing) (col : Nat) : Drawing :=
  if spriteBit b col then g.hit (clampX (x0 + col)) (clampY y) else g

/-- One sprite row: offsets 0 to 7 in order, R114, R117. -/
def drawRow (b : Byte) (x0 y : Nat) (g : Drawing) : Drawing := (List.range 8).foldl (drawBit b x0 y) g

/-- The byte of sprite row `row`: `MemRead(I + row, 1)`, R115. -/
def State.spriteRow (s : State) (row : Nat) : Byte := s.memRead (s.indexed row)

/-- The whole draw: rows 0 to `n - 1` in order, from a cleared detector (R110, R114). -/
def State.drawSprite (s : State) (x0 y0 n : Nat) : Drawing :=
  (List.range n).foldl (fun g row => drawRow (s.spriteRow row) x0 (y0 + row) g) { disp := s.disp, flag := false }

/-- `CLS`, R113. -/
def execCls (s : State) : Result := .next (s.setDisp Display.clear).advance

/-- `DRW Vx,Vy,N`, R114: the coordinates are read before any write, `VF` is always written, with the detector's bit
(R112). -/
def execDrw (x y n : Nibble) (s : State) : Result :=
  let g := s.drawSprite (s.reg x).toNat (s.reg y).toNat n.toNat
  .next ((s.setDisp g.disp).setFlag g.flag).advance

end Sys2Proof.Machine
end

