-- ==== Sys2Proof/Machine/IndexMemory.lean ====
section
/-! DEFINITION. The index-register and memory instructions of 43_index_memory.md. None changes `I` by an access (R104). -/

namespace Sys2Proof.Machine

open Sys2Proof

/-- `LD I,NNN`, R98. -/
def execLdI (nnn : Addr) (s : State) : Result := .next (s.setI (nnn.setWidth 16)).advance

/-- `ADD I,Vx`, R99: 16-bit sum, no flag. -/
def execAddIVx (x : Nibble) (s : State) : Result := .next (s.setI (s.i + (s.reg x).setWidth 16)).advance

/-- `LD F,Vx`, R100: the glyph address of the low nibble. -/
def execLdFVx (x : Nibble) (s : State) : Result := .next (s.setI (glyphAddr (lowNibble (s.reg x)))).advance

/-- `LD B,Vx`, R101: hundreds, tens and ones to `I`, `I + 1`, `I + 2`. -/
def execLdBVx (x : Nibble) (s : State) : Result :=
  let v := s.reg x
  .next (((s.memWrite (s.indexed 0) (hundreds v)).memWrite (s.indexed 1) (tens v)).memWrite
    (s.indexed 2) (ones v)).advance

/-- `LD [I],Vx`, R102: `V[0]` to `V[x]`, `x` included. -/
def execLdMemVx (x : Nibble) (s : State) : Result := .next (s.storeRegs (x.toNat + 1)).advance

/-- `LD Vx,[I]`, R103: `V[0]` to `V[x]`, `x` included. -/
def execLdVxMem (x : Nibble) (s : State) : Result := .next (s.loadRegs (x.toNat + 1)).advance

end Sys2Proof.Machine
end

