-- ==== Sys2Proof/Machine/LoadAlu.lean ====
section
/-! DEFINITION. The register load, arithmetic, logic, shift and random instructions of 42_load_alu.md. All arithmetic is on
unsigned bytes modulo 256 (R83). -/

namespace Sys2Proof.Machine

open Sys2Proof

/-- `LD Vx,NN`, R84. -/
def execLdNn (x : Nibble) (nn : Byte) (s : State) : Result := .next (s.setReg x nn).advance

/-- `ADD Vx,NN`, R85: no flag. -/
def execAddNn (x : Nibble) (nn : Byte) (s : State) : Result := .next (s.setReg x (s.reg x + nn)).advance

/-- `LD Vx,Vy`, R86. -/
def execLdVy (x y : Nibble) (s : State) : Result := .next (s.setReg x (s.reg y)).advance

/-- `OR Vx,Vy`, R87: no flag. -/
def execOrVy (x y : Nibble) (s : State) : Result := .next (s.setReg x (s.reg x ||| s.reg y)).advance

/-- `AND Vx,Vy`, R88: no flag. -/
def execAndVy (x y : Nibble) (s : State) : Result := .next (s.setReg x (s.reg x &&& s.reg y)).advance

/-- `XOR Vx,Vy`, R89: no flag. -/
def execXorVy (x y : Nibble) (s : State) : Result := .next (s.setReg x (s.reg x ^^^ s.reg y)).advance

/-- `ADD Vx,Vy`, R90. -/
def execAddVy (x y : Nibble) (s : State) : Result :=
  .next (s.setResultFlag x (s.reg x + s.reg y) (addFlag (s.reg x) (s.reg y))).advance

/-- `SUB Vx,Vy`, R91: minuend `V[x]`, subtrahend `V[y]`. -/
def execSub (x y : Nibble) (s : State) : Result :=
  .next (s.setResultFlag x (s.reg x - s.reg y) (subFlag (s.reg x) (s.reg y))).advance

/-- `SHR Vx`, R92: `V[y]` is neither read nor written. -/
def execShr (x _y : Nibble) (s : State) : Result :=
  .next (s.setResultFlag x (s.reg x >>> 1) (shrFlag (s.reg x))).advance

/-- `SUBN Vx,Vy`, R93: minuend `V[y]`, subtrahend `V[x]`, destination `V[x]`. -/
def execSubn (x y : Nibble) (s : State) : Result :=
  .next (s.setResultFlag x (s.reg y - s.reg x) (subFlag (s.reg y) (s.reg x))).advance

/-- `SHL Vx`, R94: `V[y]` is neither read nor written. -/
def execShl (x _y : Nibble) (s : State) : Result :=
  .next (s.setResultFlag x (s.reg x <<< 1) (shlFlag (s.reg x))).advance

/-- `RND Vx,NN`, R95: one draw, masked by the immediate. -/
def execRnd (x : Nibble) (nn : Byte) (s : State) : Result :=
  .next (s.setReg x (s.rnd &&& nn)).nextDraw.advance

end Sys2Proof.Machine
end

