-- ==== Sys2Proof/Machine/System.lean ====
section
/-! DEFINITION. The two kinds of 40_cycle_and_system.md that belong to no other family: SYS NNN and UNRECOGNIZED. -/

namespace Sys2Proof.Machine

open Sys2Proof

/-- `SYS NNN`, R70: raises `UnimplementedSys`, whatever `nnn` is. -/
def execSys (_nnn : Addr) (s : State) : Result := raise .unimplementedSys s

/-- `UNRECOGNIZED`, R71: a no-operation, `PC` advances. -/
def execUnrecognized (_opcode : Word) (s : State) : Result := .next s.advance

end Sys2Proof.Machine
end

