-- ==== Sys2Proof/Machine/Step.lean ====
section
/-! DEFINITION. One tick (40_cycle_and_system.md R63), and the host's way of placing an instruction. -/

namespace Sys2Proof.Machine

open Sys2Proof

/-- `Tick(rnd)`, R63: nothing when halted or paused; else fetch, decode, execute, and the timer block. The tick's `rnd` is
the free value of log entry 2. -/
def step (s : State) : Host.Outcome State Fault Refusal :=
  if s.suspended then .next s
  else
    match exec s.fetchInstr s with
    | .next t => .next t.endCycle
    | .fault r => .fault r
    | .refused r => .refused r

/-- `s` with a table word stored where the next fetch reads it, awake so that the next tick fetches it (log entry 7). -/
def State.withFetchWord (s : State) (nbits w : Nat) : State :=
  (s.placeOpcode (tableOpcode nbits w)).awake

end Sys2Proof.Machine
end

