-- ==== Sys2Proof/Machine/HostEvents.lean ====
section
/-! DEFINITION. The host interface (00_scope.md R7, 60_exceptions.md R152): the seven atomic events, `Create` among them
(70_reset_and_hazards.md R154, R155). `step` alone is `Tick`; the other events are delivered here only (log entry 3). -/

namespace Sys2Proof.Machine

open Sys2Proof

/-- Store bytes at consecutive addresses from `base` on. -/
def Memory.writeBytes (m : Memory) (base : Nat) : List Byte → Memory
  | [] => m
  | b :: rest => Memory.writeBytes (m.write base b) (base + 1) rest

/-- The default of the parameter `FONT` (R41), as the vector of 80 bytes that the parameter is (R6). -/
def defaultFont : Vector Byte 80 := ⟨Config.font.toArray, rfl⟩

/-- The memory R154 establishes: all zero, then the 80 font bytes, then the image. It is written over the empty list,
whose unlisted addresses hold the default font, so another font overwrites every byte of it. -/
def createMemory (font : Vector Byte 80) (image : List Byte) : Memory :=
  Memory.writeBytes (Memory.writeBytes [] 0 font.toList) Config.progBase image

/-- `Create(image)` on a machine whose parameter `FONT` is `font`: R154 for an image of at most 3584 bytes, R155 for a
longer one (no byte copied, `FAULT <- 5`). Nothing of the previous state survives (R156); `draws` belongs to the host's
generator, which `Create` does not seed (R153, log entry 2). -/
def createWith (font : Vector Byte 80) (image : List Byte) (s : State) : State :=
  if image.length ≤ Config.maxProgLen then
    { State.reset with mem := createMemory font image, draws := s.draws }
  else
    { State.reset with mem := createMemory font [], fault := .loadError, draws := s.draws }

/-- `Create(image)` with the default `FONT` (log entry 1). -/
def create (image : List Byte) (s : State) : State := createWith defaultFont image s

/-- The read port's bits, R106: pixel `(px, py)` is bit `64 * py + px`. -/
def Display.bits (d : Display) : BitVec 2048 :=
  d.toList.foldr (fun row acc => acc <<< 64 ||| row.setWidth 2048) 0

/-- The events of R7. A `Tick` carries no byte here: its `rnd` is the free value of log entry 2. -/
inductive HostEvent where
  /-- `Create(image)`, R154, R155 -/
  | create (image : List Byte)
  /-- `Tick(rnd)`, R63 -/
  | tick
  /-- `SetKeys(k)`, R146 -/
  | setKeys (k : Word)
  /-- `SetPause(b)`, R148 -/
  | setPause (b : Bool)
  /-- `ReadDisplay()`, R145 -/
  | readDisplay
  /-- `ReadSound()`, R147 -/
  | readSound
  /-- `ReadFault()`, R134 -/
  | readFault
deriving DecidableEq, Repr

/-- The state after an event, each atomic (R7, R68). The reads change nothing (R134, R145, R147). -/
def after (e : HostEvent) (s : State) : Result :=
  match e with
  | .create image => .next (create image s)
  | .tick => step s
  | .setKeys k => .next (s.setKeys k)
  | .setPause b => .next (s.setPaused b)
  | .readDisplay => .next s
  | .readSound => .next s
  | .readFault => .next s

/-- What an event gives back to the host (the third column of R152's table). -/
inductive Answer where
  /-- nothing -/
  | nothing
  /-- the 2048 pixel bits -/
  | display (bits : BitVec 2048)
  /-- `sound_active` -/
  | sound (active : Bool)
  /-- the three `FAULT` bits -/
  | fault (bits : BitVec 3)
deriving DecidableEq, Repr

/-- The answer to an event. -/
def answer (e : HostEvent) (s : State) : Answer :=
  match e with
  | .create _ => .nothing
  | .tick => .nothing
  | .setKeys _ => .nothing
  | .setPause _ => .nothing
  | .readDisplay => .display s.disp.bits
  | .readSound => .sound s.soundActive
  | .readFault => .fault s.fault.bits

/-- A run of events, stopping at the first fault or refusal (there is none). -/
def afterAll : List HostEvent → State → Result
  | [], s => .next s
  | e :: rest, s =>
    match after e s with
    | .next t => afterAll rest t
    | .fault r => .fault r
    | .refused r => .refused r

end Sys2Proof.Machine
end

