-- ==== Sys2Proof/Safety.lean ====
section
/-! DEFINITION. The terms the statements use: what a frame leaves unchanged, the invariants, what counts as an executed
cycle and as a safe run, and the declarative readings of a draw and of the unobservable address bits. -/

namespace Sys2Proof.Machine

open Sys2Proof

/-! ### Frames -/

/-- The parts of the state that a frame names, `V` and `PC` apart. -/
inductive Part where
  | mem | i | stack | sp | dt | st | disp | keys | paused | fault | draws
deriving DecidableEq, Repr

/-- Going from `s` to `t`, no register outside `regs` and no part outside `parts` has changed. `MEM` is compared through
reads of every address; `STACK` and `SP` are two parts. `PC` may change. -/
def Frame (regs : List Nibble) (parts : List Part) (s t : State) : Prop :=
  (∀ r, r ∉ regs → t.reg r = s.reg r) ∧
  (Part.mem ∉ parts → ∀ a, t.memRead a = s.memRead a) ∧
  (Part.i ∉ parts → t.i = s.i) ∧
  (Part.stack ∉ parts → t.stack = s.stack) ∧
  (Part.sp ∉ parts → t.sp = s.sp) ∧
  (Part.dt ∉ parts → t.dt = s.dt) ∧
  (Part.st ∉ parts → t.st = s.st) ∧
  (Part.disp ∉ parts → t.disp = s.disp) ∧
  (Part.keys ∉ parts → t.keys = s.keys) ∧
  (Part.paused ∉ parts → t.paused = s.paused) ∧
  (Part.fault ∉ parts → t.fault = s.fault) ∧
  (Part.draws ∉ parts → t.draws = s.draws)

/-- The registers `V[0]` to `V[x]`. -/
def regsUpTo (x : Nibble) : List Nibble := (List.range (x.toNat + 1)).map (BitVec.ofNat 4)

/-- The "written by" columns of 10_state.md R15, R16 and R17: the registers and the parts an instruction may write. -/
def writesOf : Instr → List Nibble × List Part
  | .cls => ([], [.disp])
  | .ret => ([], [.sp, .fault])
  | .sys _ => ([], [.fault])
  | .jp _ => ([], [])
  | .call _ => ([], [.stack, .sp, .fault])
  | .seNn _ _ => ([], [])
  | .sneNn _ _ => ([], [])
  | .seVy _ _ => ([], [])
  | .ldNn x _ => ([x], [])
  | .addNn x _ => ([x], [])
  | .ldVy x _ => ([x], [])
  | .orVy x _ => ([x], [])
  | .andVy x _ => ([x], [])
  | .xorVy x _ => ([x], [])
  | .addVy x _ => ([x, 0xF#4], [])
  | .sub x _ => ([x, 0xF#4], [])
  | .shr x _ => ([x, 0xF#4], [])
  | .subn x _ => ([x, 0xF#4], [])
  | .shl x _ => ([x, 0xF#4], [])
  | .sneVy _ _ => ([], [])
  | .ldI _ => ([], [.i])
  | .jpV0 _ => ([], [])
  | .rnd x _ => ([x], [.draws])
  | .drw _ _ _ => ([0xF#4], [.disp])
  | .skp _ => ([], [])
  | .sknp _ => ([], [])
  | .ldVxDt x => ([x], [])
  | .ldVxK _ => ([], [.fault])
  | .ldDtVx _ => ([], [.dt])
  | .ldStVx _ => ([], [.st])
  | .addIVx _ => ([], [.i])
  | .ldFVx _ => ([], [.i])
  | .ldBVx _ => ([], [.mem])
  | .ldMemVx _ => ([], [.mem])
  | .ldVxMem x => (regsUpTo x, [])
  | .unrecognized _ => ([], [])

/-- The ways `PC` moves, the table of 10_state.md R18: `s` before and `t` after the instruction. -/
def PcMoves (i : Instr) (s t : State) : Prop :=
  match i with
  | .sys _ | .ldVxK _ => t.pc = s.pc
  | .ret => (s.sp.val = 0 ∧ t.pc = s.pc) ∨ ∃ k : Fin 16, s.sp.val = k.val + 1 ∧ t.pc = s.stack[k]
  | .call nnn => (s.sp.val = 16 ∧ t.pc = s.pc) ∨ (s.sp.val ≠ 16 ∧ t.pc = nnn.setWidth 16)
  | .jp nnn => t.pc = nnn.setWidth 16
  | .jpV0 nnn => t.pc.toNat = nnn.toNat + (s.reg 0x0#4).toNat
  | .seNn _ _ | .sneNn _ _ | .seVy _ _ | .sneVy _ _ | .skp _ | .sknp _ => t.pc = s.pc + 2 ∨ t.pc = s.pc + 4
  | .cls | .ldNn _ _ | .addNn _ _ | .ldVy _ _ | .orVy _ _ | .andVy _ _ | .xorVy _ _ | .addVy _ _ | .sub _ _
  | .shr _ _ | .subn _ _ | .shl _ _ | .ldI _ | .rnd _ _ | .drw _ _ _ | .ldVxDt _ | .ldDtVx _ | .ldStVx _
  | .addIVx _ | .ldFVx _ | .ldBVx _ | .ldMemVx _ | .ldVxMem _ | .unrecognized _ => t.pc = s.pc + 2

/-! ### Invariants -/

/-- `MEM` is in its canonical form: rising addresses below 4096, nothing listed that an unlisted address reads as. -/
def MemCanonical (s : State) : Prop := s.mem.wf = true

/-- A recorded fault is explained by the state: the instruction at `PC` is one that raises it, in the condition that
raises it (60_exceptions.md R134, R137); a load error leaves the machine at the entry point with an empty stack (R155). -/
def FaultExplained (s : State) : Prop :=
  match s.fault with
  | .running => True
  | .stackUnderflow => s.fetchInstr = .ret ∧ s.sp.val = 0
  | .stackOverflow => (∃ nnn, s.fetchInstr = .call nnn) ∧ s.sp.val = 16
  | .unimplementedSys => ∃ nnn, s.fetchInstr = .sys nnn
  | .unimplementedKeyWait => ∃ x, s.fetchInstr = .ldVxK x
  | .loadError => s.pc = Config.pcReset ∧ s.sp.val = 0

/-! ### Executed cycles and safe runs -/

/-- A tick from `s` that executed an instruction to completion and left `t` (45_timers_keypad.md R121). -/
def Executes (s t : State) : Prop := s.suspended = false ∧ step s = .next t ∧ t.fault = .running

/-- `k` executed cycles in a row from `s` to `t`, each starting in a state that meets `P`. -/
def ExecutesFor (P : State → Prop) : Nat → State → State → Prop
  | 0, s, t => t = s
  | k + 1, s, t => ∃ u, P s ∧ Executes s u ∧ ExecutesFor P k u t

/-- A safe run: `k` ticks from `s`, no state on the way halted (60_exceptions.md R143). -/
def SafeFor (k : Nat) (s : State) : Prop :=
  ∀ j, j ≤ k → ∃ t, Host.Core.run Sys2Proof.core j s = .next t ∧ t.fault = .running

/-! ### Draws, said without the loop (44_display.md R116, R117) -/

/-- Sprite bit `(row, col)` is set and its clamped position is `(px, py)`. -/
def landsOn (s : State) (x0 y0 px py : Nat) (rc : Nat × Nat) : Bool :=
  spriteBit (s.spriteRow rc.1) rc.2 && decide (min (x0 + rc.2) 63 = px) && decide (min (y0 + rc.1) 31 = py)

/-- All `(row, col)` positions of a sprite of `n` rows. -/
def spritePositions (n : Nat) : List (Nat × Nat) :=
  (List.range n).flatMap (fun row => (List.range 8).map (fun col => (row, col)))

/-- How many set bits of the sprite clamp to the pixel `(px, py)`: the `t` of R117. -/
def hits (s : State) (x0 y0 n px py : Nat) : Nat := (spritePositions n).countP (landsOn s x0 y0 px py)

/-! ### Bits 15 to 12 of addresses (10_state.md R18, R19) -/

/-- Two states that agree but for bits 15 to 12 of `PC`, `I` and the stack entries. -/
def SameBelow4096 (s t : State) : Prop :=
  t = { s with pc := t.pc, i := t.i, stack := t.stack } ∧
  t.pc.toNat % 4096 = s.pc.toNat % 4096 ∧
  t.i.toNat % 4096 = s.i.toNat % 4096 ∧
  ∀ j : Fin 16, t.stack[j].toNat % 4096 = s.stack[j].toNat % 4096

end Sys2Proof.Machine
end

