-- ==== Sys2Proof/Certificates/Slice0/Obligations.lean ====
section
/-! DEFINITION. The statements for the provers. Each docstring names the rule or the sections of spec/ it formalises. -/

open Sys2Proof Sys2Proof.Machine

/-! ## Encoding -/

/-- Decode and encode agree, every operand at every value (30_encoding.md R52, R57, R59). That the fields an instruction
ignores are operands of it too is the model's choice (log entry 9, DESIGN CHOICE). -/
def Obligations.DecodeOfEncodeIsIdentity : Prop :=
  ∀ i : Instr, i.wf = true → decode (encode i) = i

/-- Each of the 65536 words decodes to a well-formed instruction (R58) whose encoding (R52) is that word. That every bit
comes back, the ignored `y` of SHR and SHL and the whole word of UNRECOGNIZED among them, is the model's choice: its
instructions carry the fields they ignore (log entry 9, DESIGN CHOICE); R52 and R58 alone do not give it. -/
def Obligations.EncodeOfDecodeIsIdentity : Prop :=
  ∀ w : Word, (decode w).wf = true ∧ encode (decode w) = w

/-- The UNRECOGNIZED space is exactly the table of R57. -/
def Obligations.UnrecognizedSpaceIsTheTable : Prop :=
  ∀ w : Word, (∃ v, decode w = .unrecognized v) ↔ inUnrecognizedSpace w = true

/-- The four words the document gives (R60), one word of every other family from 95_test_vectors.md 2.1, and the bytes
of a word in memory order. -/
def Obligations.WorkedWordsDecode : Prop :=
  decode 0x00E0 = .cls ∧ decode 0x6A3C = .ldNn 0xA 0x3C ∧ decode 0xA200 = .ldI 0x200 ∧ decode 0xF029 = .ldFVx 0x0 ∧
  decode 0x00EE = .ret ∧ decode 0x0000 = .sys 0x000 ∧ decode 0x2ABC = .call 0xABC ∧ decode 0x8AB7 = .subn 0xA 0xB ∧
  decode 0x5121 = .unrecognized 0x5121 ∧ decode 0xE0A1 = .sknp 0x0 ∧ decode 0xF165 = .ldVxMem 0x1 ∧
  decode 0xD125 = .drw 0x1 0x2 0x5 ∧ decodeBytes [0x6A, 0x3C] = .ok (.ldNn 0xA 0x3C, [])

/-! ## The cycle -/

/-- One tick, R63: nothing when halted or paused; else the instruction that the two bytes at `PC` decode to (the byte at
`PC` high, R35), and then one decrement of each timer on the values it left, unless it raised a fault (R67). -/
def Obligations.TickRunsTheDecodedInstruction : Prop :=
  ∀ s : State,
    (s.fault ≠ .running → step s = .next s) ∧
    (s.paused = true → step s = .next s) ∧
    (s.fault = .running → s.paused = false →
      ∀ i t, decode (s.memRead s.pc.toNat ++ s.memRead (s.pc.toNat + 1)) = i → exec i s = .next t →
        (t.fault = .running → step s = .next { t with dt := countdown t.dt, st := countdown t.st }) ∧
        (t.fault ≠ .running → step s = .next t ∧ t = { s with fault := t.fault }))

/-- `execute` is total over the kinds, and so is a tick (R65): no state and no instruction ends in a model fault or a
refusal (a fault of the spec is a next state, log entry 6). -/
def Obligations.EveryInstructionAndTickCompletes : Prop :=
  (∀ (i : Instr) (s : State), ∃ t, exec i s = .next t) ∧ (∀ s : State, ∃ t, step s = .next t)

/-- Halted and paused ticks, any number of them, change nothing (R64, R143). -/
def Obligations.SuspendedMachineStaysPut : Prop :=
  ∀ (k : Nat) (s : State), s.fault ≠ .running ∨ s.paused = true → Host.Core.run Sys2Proof.core k s = .next s

/-- Faults are precise, R137: of the whole cycle that raises one, `FAULT` is the only change. -/
def Obligations.FaultingCycleChangesOnlyFault : Prop :=
  ∀ s t : State, s.fault = .running → step s = .next t → t.fault ≠ .running → t = { s with fault := t.fault }

/-- Which instruction raises which fault in which condition, and that nothing else raises one (R134, R141, R142). -/
def Obligations.FaultCausesAreExact : Prop :=
  ∀ s t : State, s.fault = .running → s.paused = false → step s = .next t →
    (t.fault = .stackUnderflow ↔ s.fetchInstr = .ret ∧ s.sp.val = 0) ∧
    (t.fault = .stackOverflow ↔ (∃ nnn, s.fetchInstr = .call nnn) ∧ s.sp.val = 16) ∧
    (t.fault = .unimplementedSys ↔ ∃ nnn, s.fetchInstr = .sys nnn) ∧
    (t.fault = .unimplementedKeyWait ↔ ∃ x, s.fetchInstr = .ldVxK x) ∧
    t.fault ≠ .loadError

/-- The timers of an executed cycle, R120 to R122: one decrement, never below 0, on the value a timer write of the same
cycle left; a paused, halted or faulting tick decrements nothing. -/
def Obligations.TimersCountExecutedCycles : Prop :=
  ∀ s t : State, step s = .next t →
    (s.suspended = false → t.fault = .running →
      (∀ x, s.fetchInstr = .ldDtVx x → t.dt.toNat = (s.reg x).toNat - 1) ∧
      ((∀ x, s.fetchInstr ≠ .ldDtVx x) → t.dt.toNat = s.dt.toNat - 1) ∧
      (∀ x, s.fetchInstr = .ldStVx x → t.st.toNat = (s.reg x).toNat - 1) ∧
      ((∀ x, s.fetchInstr ≠ .ldStVx x) → t.st.toNat = s.st.toNat - 1)) ∧
    (s.suspended = true ∨ t.fault ≠ .running → t.dt = s.dt ∧ t.st = s.st)

/-- A timer that no instruction writes is down by `k` after `k` executed cycles and then stays 0; sound is active exactly
while fewer cycles than `ST` have been executed (R121, R123, the document's scenario). -/
def Obligations.TimerReachesZeroAfterItsCount : Prop :=
  ∀ (k : Nat) (s t : State),
    (ExecutesFor (fun u => ∀ x, u.fetchInstr ≠ .ldStVx x) k s t →
      t.st.toNat = s.st.toNat - k ∧ (t.soundActive = true ↔ k < s.st.toNat)) ∧
    (ExecutesFor (fun u => ∀ x, u.fetchInstr ≠ .ldDtVx x) k s t → t.dt.toNat = s.dt.toNat - k)

/-! ## Invariants -/

/-- Every tick keeps the canonical form of memory (the model's own, log entry 5), from every state that has it. -/
def Obligations.TickKeepsMemoryCanonical : Prop :=
  ∀ s t : State, MemCanonical s → step s = .next t → MemCanonical t

/-- Every tick keeps a recorded fault explained by the instruction at `PC` (R134, R137, R143). -/
def Obligations.TickKeepsFaultExplained : Prop :=
  ∀ s t : State, FaultExplained s → step s = .next t → FaultExplained t

/-- Every run of host events, `Create` of any image among them, keeps both invariants (R7, R152, R154, R155). -/
def Obligations.HostEventsKeepInvariants : Prop :=
  ∀ (es : List HostEvent) (s t : State), MemCanonical s → FaultExplained s → afterAll es s = .next t →
    MemCanonical t ∧ FaultExplained t

/-- Both invariants hold after reset, R32 with the empty image. -/
def Obligations.InvariantsHoldAtReset : Prop :=
  MemCanonical State.reset ∧ FaultExplained State.reset

/-- Canonical memories that read the same are the same data (the model's memory form, log entry 5). -/
def Obligations.EqualReadsAreEqualMemories : Prop :=
  ∀ m m' : Memory, m.wf = true → m'.wf = true → (∀ a, a < 4096 → m.read a = m'.read a) → m = m'

/-! ## Whole-machine rules -/

/-- An instruction writes only what the tables of R15, R16 and R17 name for it. -/
def Obligations.InstructionsWriteOnlyTheirTargets : Prop :=
  ∀ (i : Instr) (s t : State), exec i s = .next t → Frame (writesOf i).1 (writesOf i).2 s t

/-- The ways `PC` moves, R18. -/
def Obligations.ProgramCounterMovesByTheTable : Prop :=
  ∀ (i : Instr) (s t : State), exec i s = .next t → PcMoves i s t

/-- `VF` changes only by the six flag writers of R17 or when it is the named destination; a flag writer leaves the byte
0x00 or 0x01 in it. -/
def Obligations.FlagRegisterHasSixWriters : Prop :=
  ∀ (i : Instr) (s t : State), exec i s = .next t →
    ((∃ x y, i = .addVy x y ∨ i = .sub x y ∨ i = .shr x y ∨ i = .subn x y ∨ i = .shl x y ∨ ∃ n, i = .drw x y n) →
      t.reg 0xF#4 = 0x00#8 ∨ t.reg 0xF#4 = 0x01#8) ∧
    (t.reg 0xF#4 ≠ s.reg 0xF#4 →
      (∃ x y, i = .addVy x y ∨ i = .sub x y ∨ i = .shr x y ∨ i = .subn x y ∨ i = .shl x y ∨ ∃ n, i = .drw x y n) ∨
      (∃ nn, i = .ldNn 0xF#4 nn ∨ i = .addNn 0xF#4 nn ∨ i = .rnd 0xF#4 nn) ∨
      (∃ y, i = .ldVy 0xF#4 y ∨ i = .orVy 0xF#4 y ∨ i = .andVy 0xF#4 y ∨ i = .xorVy 0xF#4 y) ∨
      i = .ldVxDt 0xF#4 ∨ i = .ldVxMem 0xF#4)

/-- What a host event can change: the display by `Create`, `CLS` and `DRW` only (R109), memory by `Create`, `LD B,Vx` and
`LD [I],Vx` only (R42, R46), `KEYS` by `SetKeys` and `Create` only (R28), `PAUSED` by `SetPause` and `Create` only
(R25). -/
def Obligations.EventsChangeOnlyWhatTheyOwn : Prop :=
  ∀ (e : HostEvent) (s t : State), after e s = .next t →
    (t.disp ≠ s.disp → (∃ image, e = .create image) ∨
      e = .tick ∧ (s.fetchInstr = .cls ∨ ∃ x y n, s.fetchInstr = .drw x y n)) ∧
    (t.mem ≠ s.mem → (∃ image, e = .create image) ∨
      e = .tick ∧ ∃ x, s.fetchInstr = .ldBVx x ∨ s.fetchInstr = .ldMemVx x) ∧
    (t.keys ≠ s.keys → (∃ image, e = .create image) ∨ e = .setKeys t.keys) ∧
    (t.paused ≠ s.paused → (∃ image, e = .create image) ∨ e = .setPause t.paused)

/-- A recorded fault stays until `Create`: no other event changes a nonzero `FAULT` (R26, R143). -/
def Obligations.OnlyCreateLeavesTheHaltedState : Prop :=
  ∀ (es : List HostEvent) (s t : State), s.fault ≠ .running → (∀ image, HostEvent.create image ∉ es) →
    afterAll es s = .next t → t = { s with keys := t.keys, paused := t.paused }

/-- Bits 15 to 12 of `PC`, of `I` and of the stack entries are unobservable (R18, R19, derived there): states that differ
in nothing else stay so at every tick, both ticks being offered the same random byte (log entry 2). -/
def Obligations.HighAddressBitsAreUnobservable : Prop :=
  ∀ s t s' t' : State, SameBelow4096 s t → step s = .next s' → step t = .next t' → SameBelow4096 s' t'

/-! ## Control transfer and system -/

/-- `CLS`, R113. -/
def Obligations.ClsClearsTheDisplay : Prop :=
  ∀ s : State, decode 0x00E0 = .cls ∧
    ∃ t, exec .cls s = .next t ∧ (∀ px py, t.disp.pixel px py = false) ∧ t.pc = s.pc + 2 ∧ Frame [] [.disp] s t

/-- `RET`, R73 with `Pop`, R22: the empty stack faults; else `PC` is the top entry, which is not erased. -/
def Obligations.RetPopsIntoPc : Prop :=
  ∀ s : State, decode 0x00EE = .ret ∧
    (s.sp.val = 0 → exec .ret s = .next { s with fault := .stackUnderflow }) ∧
    (∀ k : Fin 16, s.sp.val = k.val + 1 →
      ∃ t, exec .ret s = .next t ∧ t.pc = s.stack[k] ∧ t.sp.val = k.val ∧ t.stack = s.stack ∧ Frame [] [.sp] s t)

/-- `JP NNN`, R74. -/
def Obligations.JpSetsPc : Prop :=
  ∀ (nnn : Addr) (s : State), decode (0x1#4 ++ nnn) = .jp nnn ∧
    ∃ t, exec (.jp nnn) s = .next t ∧ t.pc.toNat = nnn.toNat ∧ Frame [] [] s t

/-- `CALL NNN`, R75 with `Push`, R21: the full stack faults; else `PC + 2` is the new top entry. -/
def Obligations.CallPushesReturnAddress : Prop :=
  ∀ (nnn : Addr) (s : State), decode (0x2#4 ++ nnn) = .call nnn ∧
    (s.sp.val = 16 → exec (.call nnn) s = .next { s with fault := .stackOverflow }) ∧
    (∀ k : Fin 16, s.sp.val = k.val →
      ∃ t, exec (.call nnn) s = .next t ∧ t.pc.toNat = nnn.toNat ∧ t.sp.val = k.val + 1 ∧ t.stack[k] = s.pc + 2 ∧
        (∀ j : Fin 16, j ≠ k → t.stack[j] = s.stack[j]) ∧ Frame [] [.stack, .sp] s t)

/-- A call and an immediate return come back to the instruction after the call, the stack as deep as before
(the document's property, 95_test_vectors.md S6). -/
def Obligations.CallThenReturnComesBack : Prop :=
  ∀ (nnn : Addr) (s : State), s.sp.val < 16 →
    ∃ t u, exec (.call nnn) s = .next t ∧ exec .ret t = .next u ∧ u.pc = s.pc + 2 ∧ u.sp = s.sp ∧
      (∀ j : Fin 16, j.val < s.sp.val → u.stack[j] = s.stack[j]) ∧ Frame [] [.stack] s u

/-- The skips against an immediate, R76 and R77. -/
def Obligations.ImmediateSkips : Prop :=
  ∀ (x : Nibble) (nn : Byte) (s : State),
    decode (0x3#4 ++ x ++ nn) = .seNn x nn ∧ decode (0x4#4 ++ x ++ nn) = .sneNn x nn ∧
    (∃ t, exec (.seNn x nn) s = .next t ∧ t.pc = (if s.reg x = nn then s.pc + 4 else s.pc + 2) ∧ Frame [] [] s t) ∧
    (∃ t, exec (.sneNn x nn) s = .next t ∧ t.pc = (if s.reg x ≠ nn then s.pc + 4 else s.pc + 2) ∧ Frame [] [] s t)

/-- The skips between registers, R78 and R79. -/
def Obligations.RegisterSkips : Prop :=
  ∀ (x y : Nibble) (s : State),
    decode (0x5#4 ++ x ++ y ++ 0x0#4) = .seVy x y ∧ decode (0x9#4 ++ x ++ y ++ 0x0#4) = .sneVy x y ∧
    (∃ t, exec (.seVy x y) s = .next t ∧ t.pc = (if s.reg x = s.reg y then s.pc + 4 else s.pc + 2) ∧ Frame [] [] s t) ∧
    (∃ t, exec (.sneVy x y) s = .next t ∧ t.pc = (if s.reg x ≠ s.reg y then s.pc + 4 else s.pc + 2) ∧ Frame [] [] s t)

/-- `JP V0,NNN`, R80: the sum is not truncated. -/
def Obligations.IndexedJumpAddsV0 : Prop :=
  ∀ (nnn : Addr) (s : State), decode (0xB#4 ++ nnn) = .jpV0 nnn ∧
    ∃ t, exec (.jpV0 nnn) s = .next t ∧ t.pc.toNat = nnn.toNat + (s.reg 0x0#4).toNat ∧ Frame [] [] s t

/-- `SYS NNN`, R70: always the fault, in the instruction and in the tick that fetches it. -/
def Obligations.SysFaults : Prop :=
  ∀ (nnn : Addr) (s : State),
    (nnn ≠ 0x0E0#12 → nnn ≠ 0x0EE#12 → decode (0x0#4 ++ nnn) = .sys nnn) ∧
    exec (.sys nnn) s = .next { s with fault := .unimplementedSys } ∧
    (s.suspended = false → s.fetchInstr = .sys nnn → step s = .next { s with fault := .unimplementedSys })

/-- `LD Vx,K`, R132: always the fault, whatever `KEYS` holds. -/
def Obligations.KeyWaitFaults : Prop :=
  ∀ (x : Nibble) (s : State), decode (0xF#4 ++ x ++ 0x0A#8) = .ldVxK x ∧
    exec (.ldVxK x) s = .next { s with fault := .unimplementedKeyWait } ∧
    (s.suspended = false → s.fetchInstr = .ldVxK x → step s = .next { s with fault := .unimplementedKeyWait })

/-- `UNRECOGNIZED`, R71: a no-operation that advances `PC`; its cycle counts as executed, so the timers decrement. -/
def Obligations.UnrecognizedIsNoOperation : Prop :=
  ∀ (w : Word) (s : State), inUnrecognizedSpace w = true →
    decode w = .unrecognized w ∧ exec (.unrecognized w) s = .next { s with pc := s.pc + 2 } ∧
    (s.suspended = false → s.fetchOpcode = w →
      step s = .next { s with pc := s.pc + 2, dt := countdown s.dt, st := countdown s.st })

/-- The spin (R74, R69): a jump to its own address runs for ever without a fault, and only the timers change. -/
def Obligations.SelfJumpSpinsSafely : Prop :=
  ∀ (nnn : Addr) (s : State), s.fault = .running → s.paused = false → s.fetchInstr = .jp nnn → s.pc = nnn.setWidth 16 →
    ∀ k, SafeFor k s ∧
      ∃ t, Host.Core.run Sys2Proof.core k s = .next t ∧ t = { s with dt := t.dt, st := t.st } ∧
        t.dt.toNat = s.dt.toNat - k ∧ t.st.toNat = s.st.toNat - k

/-! ## Load and ALU -/

/-- The two loads, R84 and R86. -/
def Obligations.RegisterLoads : Prop :=
  ∀ (x y : Nibble) (nn : Byte) (s : State),
    decode (0x6#4 ++ x ++ nn) = .ldNn x nn ∧ decode (0x8#4 ++ x ++ y ++ 0x0#4) = .ldVy x y ∧
    (∃ t, exec (.ldNn x nn) s = .next t ∧ t.reg x = nn ∧ t.pc = s.pc + 2 ∧ Frame [x] [] s t) ∧
    (∃ t, exec (.ldVy x y) s = .next t ∧ t.reg x = s.reg y ∧ t.pc = s.pc + 2 ∧ Frame [x] [] s t)

/-- `ADD Vx,NN`, R85: modulo 256, `VF` untouched unless it is the destination. -/
def Obligations.AddImmediateWraps : Prop :=
  ∀ (x : Nibble) (nn : Byte) (s : State), decode (0x7#4 ++ x ++ nn) = .addNn x nn ∧
    ∃ t, exec (.addNn x nn) s = .next t ∧ (t.reg x).toNat = ((s.reg x).toNat + nn.toNat) % 256 ∧ t.pc = s.pc + 2 ∧
      Frame [x] [] s t

/-- `OR`, `AND`, `XOR`, R87 to R89: bit by bit, no flag. -/
def Obligations.LogicIsBitwiseWithoutFlag : Prop :=
  ∀ (x y : Nibble) (s : State),
    decode (0x8#4 ++ x ++ y ++ 0x1#4) = .orVy x y ∧ decode (0x8#4 ++ x ++ y ++ 0x2#4) = .andVy x y ∧
    decode (0x8#4 ++ x ++ y ++ 0x3#4) = .xorVy x y ∧
    (∃ t, exec (.orVy x y) s = .next t ∧
      (∀ k, (t.reg x).getLsbD k = ((s.reg x).getLsbD k || (s.reg y).getLsbD k)) ∧ t.pc = s.pc + 2 ∧ Frame [x] [] s t) ∧
    (∃ t, exec (.andVy x y) s = .next t ∧
      (∀ k, (t.reg x).getLsbD k = ((s.reg x).getLsbD k && (s.reg y).getLsbD k)) ∧ t.pc = s.pc + 2 ∧ Frame [x] [] s t) ∧
    (∃ t, exec (.xorVy x y) s = .next t ∧
      (∀ k, (t.reg x).getLsbD k = ((s.reg x).getLsbD k ^^ (s.reg y).getLsbD k)) ∧ t.pc = s.pc + 2 ∧ Frame [x] [] s t)

/-- `ADD Vx,Vy`, R90: the sum modulo 256 and the carry, the flag winning when `x = 0xF` (R97). -/
def Obligations.RegisterAddSetsCarry : Prop :=
  ∀ (x y : Nibble) (s : State), decode (0x8#4 ++ x ++ y ++ 0x4#4) = .addVy x y ∧
    ∃ t, exec (.addVy x y) s = .next t ∧
      t.reg 0xF#4 = (if (s.reg x).toNat + (s.reg y).toNat > 255 then 0x01#8 else 0x00#8) ∧
      (x ≠ 0xF#4 → (t.reg x).toNat = ((s.reg x).toNat + (s.reg y).toNat) % 256) ∧
      t.pc = s.pc + 2 ∧ Frame [x, 0xF#4] [] s t

/-- `SUB` and `SUBN`, R91 and R93: both directions wrap, and the flag is 1 iff the minuend is strictly greater. -/
def Obligations.SubtractsFlagStrictlyGreater : Prop :=
  ∀ (x y : Nibble) (s : State),
    decode (0x8#4 ++ x ++ y ++ 0x5#4) = .sub x y ∧ decode (0x8#4 ++ x ++ y ++ 0x7#4) = .subn x y ∧
    (∃ t, exec (.sub x y) s = .next t ∧
      t.reg 0xF#4 = (if (s.reg x).toNat > (s.reg y).toNat then 0x01#8 else 0x00#8) ∧
      (x ≠ 0xF#4 → (t.reg x).toNat = ((s.reg x).toNat + 256 - (s.reg y).toNat) % 256) ∧
      t.pc = s.pc + 2 ∧ Frame [x, 0xF#4] [] s t) ∧
    (∃ t, exec (.subn x y) s = .next t ∧
      t.reg 0xF#4 = (if (s.reg y).toNat > (s.reg x).toNat then 0x01#8 else 0x00#8) ∧
      (x ≠ 0xF#4 → (t.reg x).toNat = ((s.reg y).toNat + 256 - (s.reg x).toNat) % 256) ∧
      t.pc = s.pc + 2 ∧ Frame [x, 0xF#4] [] s t)

/-- `SHR` and `SHL`, R92 and R94: one place, the bit shifted out in `VF`, the `y` field ignored. -/
def Obligations.ShiftsUseTheirOwnRegister : Prop :=
  ∀ (x y : Nibble) (s : State),
    decode (0x8#4 ++ x ++ y ++ 0x6#4) = .shr x y ∧ decode (0x8#4 ++ x ++ y ++ 0xE#4) = .shl x y ∧
    (∃ t, exec (.shr x y) s = .next t ∧
      (t.reg 0xF#4).toNat = (s.reg x).toNat % 2 ∧ (x ≠ 0xF#4 → (t.reg x).toNat = (s.reg x).toNat / 2) ∧
      t.pc = s.pc + 2 ∧ Frame [x, 0xF#4] [] s t) ∧
    (∃ t, exec (.shl x y) s = .next t ∧
      (t.reg 0xF#4).toNat = (s.reg x).toNat / 128 ∧ (x ≠ 0xF#4 → (t.reg x).toNat = 2 * (s.reg x).toNat % 256) ∧
      t.pc = s.pc + 2 ∧ Frame [x, 0xF#4] [] s t)

/-- `RND Vx,NN`, R95, for every value of the free byte: it is masked by the immediate, and one draw is used (the counter
of draws is the model's own, log entry 2). -/
def Obligations.RandomByteIsMasked : Prop :=
  ∀ (x : Nibble) (nn : Byte) (s : State), decode (0xC#4 ++ x ++ nn) = .rnd x nn ∧
    ∃ t, exec (.rnd x nn) s = .next t ∧ t.reg x = Config.rnd s.draws &&& nn ∧ t.draws = s.draws + 1 ∧
      t.pc = s.pc + 2 ∧ Frame [x] [.draws] s t

/-! ## Index register and memory -/

/-- `LD I,NNN`, `ADD I,Vx` and `LD F,Vx`, R98 to R100. -/
def Obligations.IndexRegisterLoads : Prop :=
  ∀ (nnn : Addr) (x : Nibble) (s : State),
    decode (0xA#4 ++ nnn) = .ldI nnn ∧ decode (0xF#4 ++ x ++ 0x1E#8) = .addIVx x ∧
    decode (0xF#4 ++ x ++ 0x29#8) = .ldFVx x ∧
    (∃ t, exec (.ldI nnn) s = .next t ∧ t.i.toNat = nnn.toNat ∧ t.pc = s.pc + 2 ∧ Frame [] [.i] s t) ∧
    (∃ t, exec (.addIVx x) s = .next t ∧ t.i.toNat = (s.i.toNat + (s.reg x).toNat) % 65536 ∧ t.pc = s.pc + 2 ∧
      Frame [] [.i] s t) ∧
    (∃ t, exec (.ldFVx x) s = .next t ∧ t.i.toNat = 5 * ((s.reg x).toNat % 16) ∧ t.pc = s.pc + 2 ∧
      Frame [] [.i] s t)

/-- `LD B,Vx`, R101: the three digits, at the three cells, and nowhere else. -/
def Obligations.DecimalDigitsAreStored : Prop :=
  ∀ (x : Nibble) (s : State), MemCanonical s → decode (0xF#4 ++ x ++ 0x33#8) = .ldBVx x ∧
    ∃ t, exec (.ldBVx x) s = .next t ∧
      (t.memRead (s.indexed 0)).toNat = (s.reg x).toNat / 100 ∧
      (t.memRead (s.indexed 1)).toNat = (s.reg x).toNat / 10 % 10 ∧
      (t.memRead (s.indexed 2)).toNat = (s.reg x).toNat % 10 ∧
      (∀ a, (∀ k, k < 3 → cellOf a ≠ cellOf (s.indexed k)) → t.memRead a = s.memRead a) ∧
      t.pc = s.pc + 2 ∧ Frame [] [.mem] s t

/-- `LD [I],Vx`, R102: `V[0]` to `V[x]` at the cells of `I` to `I + x`, nothing else stored, `I` unchanged. -/
def Obligations.BulkStoreStoresUpToX : Prop :=
  ∀ (x : Nibble) (s : State), MemCanonical s → decode (0xF#4 ++ x ++ 0x55#8) = .ldMemVx x ∧
    ∃ t, exec (.ldMemVx x) s = .next t ∧
      (∀ k : Nibble, k ≤ x → t.memRead (s.indexed k.toNat) = s.reg k) ∧
      (∀ a, (∀ k, k ≤ x.toNat → cellOf a ≠ cellOf (s.indexed k)) → t.memRead a = s.memRead a) ∧
      t.pc = s.pc + 2 ∧ Frame [] [.mem] s t

/-- `LD Vx,[I]`, R103: `V[0]` to `V[x]` from the cells of `I` to `I + x`, no other register, `I` unchanged. -/
def Obligations.BulkLoadLoadsUpToX : Prop :=
  ∀ (x : Nibble) (s : State), decode (0xF#4 ++ x ++ 0x65#8) = .ldVxMem x ∧
    ∃ t, exec (.ldVxMem x) s = .next t ∧
      (∀ k : Nibble, k ≤ x → t.reg k = s.memRead (s.indexed k.toNat)) ∧
      (∀ k : Nibble, x < k → t.reg k = s.reg k) ∧
      t.pc = s.pc + 2 ∧ Frame (regsUpTo x) [] s t

/-- The round trip of R105: stored registers come back through any state that holds the same `I` and whose cells nothing
has written since, wrapped ranges included. -/
def Obligations.StoredRegistersComeBack : Prop :=
  ∀ (x : Nibble) (s t u w : State), MemCanonical s → exec (.ldMemVx x) s = .next t → u.i = s.i →
    (∀ k, k ≤ x.toNat → u.memRead (u.indexed k) = t.memRead (u.indexed k)) → exec (.ldVxMem x) u = .next w →
    ∀ k : Nibble, k ≤ x → w.reg k = s.reg k

/-- A store is seen by the very next fetch (R45), for each of the two instructions that store to memory, `LD [I],Vx` for
every `x` and `LD B,Vx`: whichever byte of the store reaches the cell of the next instruction's first or second byte is the
high or the low byte of the opcode fetched next, also when the range wraps or only one of the two bytes is stored. -/
def Obligations.StoreIsSeenByTheNextFetch : Prop :=
  ∀ (x : Nibble) (s t : State), MemCanonical s →
    (exec (.ldMemVx x) s = .next t → ∀ k : Nibble, k ≤ x →
      (cellOf (s.indexed k.toNat) = cellOf (s.pc + 2).toNat → t.fetchOpcode.extractLsb' 8 8 = s.reg k) ∧
      (cellOf (s.indexed k.toNat) = cellOf ((s.pc + 2).toNat + 1) → t.fetchOpcode.extractLsb' 0 8 = s.reg k)) ∧
    (exec (.ldBVx x) s = .next t → ∀ k, k < 3 →
      (cellOf (s.indexed k) = cellOf (s.pc + 2).toNat →
        (t.fetchOpcode.extractLsb' 8 8).toNat = (s.reg x).toNat / 10 ^ (2 - k) % 10) ∧
      (cellOf (s.indexed k) = cellOf ((s.pc + 2).toNat + 1) →
        (t.fetchOpcode.extractLsb' 0 8).toNat = (s.reg x).toNat / 10 ^ (2 - k) % 10))

/-! ## Display -/

/-- `DRW Vx,Vy,N` without the loop (R114, R116, R117): each pixel is inverted once for every set sprite bit that clamps
to it, and `VF` is 1 exactly when some pixel is hit at least twice, or hit while off. -/
def Obligations.DrawIsXorWithClampedHits : Prop :=
  ∀ (x y n : Nibble) (s : State), decode (0xD#4 ++ x ++ y ++ n) = .drw x y n ∧
    ∃ t, exec (.drw x y n) s = .next t ∧
      (∀ (px : Fin 64) (py : Fin 32), t.disp.pixel px py =
        (s.disp.pixel px py ^^ decide (hits s (s.reg x).toNat (s.reg y).toNat n.toNat px.val py.val % 2 = 1))) ∧
      ((∃ (px : Fin 64) (py : Fin 32),
          2 ≤ hits s (s.reg x).toNat (s.reg y).toNat n.toNat px.val py.val ∨
          (hits s (s.reg x).toNat (s.reg y).toNat n.toNat px.val py.val = 1 ∧ s.disp.pixel px py = false)) →
        t.reg 0xF#4 = 0x01#8) ∧
      ((∀ (px : Fin 64) (py : Fin 32),
          hits s (s.reg x).toNat (s.reg y).toNat n.toNat px.val py.val = 0 ∨
          (hits s (s.reg x).toNat (s.reg y).toNat n.toNat px.val py.val = 1 ∧ s.disp.pixel px py = true)) →
        t.reg 0xF#4 = 0x00#8) ∧
      t.pc = s.pc + 2 ∧ Frame [0xF#4] [.disp] s t

/-- A sprite that lies inside the display (R117): the picture is the old one XOR the sprite, and `VF` is 1 exactly when
some set bit fell on a pixel that was off. -/
def Obligations.UnclampedDrawIsPlainXor : Prop :=
  ∀ (x y n : Nibble) (s t : State), (s.reg x).toNat ≤ 56 → (s.reg y).toNat + n.toNat ≤ 32 →
    exec (.drw x y n) s = .next t →
    (∀ (px : Fin 64) (py : Fin 32), t.disp.pixel px py =
      (s.disp.pixel px py ^^
        (decide ((s.reg x).toNat ≤ px.val ∧ px.val < (s.reg x).toNat + 8 ∧
          (s.reg y).toNat ≤ py.val ∧ py.val < (s.reg y).toNat + n.toNat) &&
        spriteBit (s.spriteRow (py.val - (s.reg y).toNat)) (px.val - (s.reg x).toNat)))) ∧
    (t.reg 0xF#4 = 0x01#8 ↔ ∃ row col, row < n.toNat ∧ col < 8 ∧ spriteBit (s.spriteRow row) col = true ∧
      s.disp.pixel (clampX ((s.reg x).toNat + col)) (clampY ((s.reg y).toNat + row)) = false) ∧
    (t.reg 0xF#4 = 0x01#8 ∨ t.reg 0xF#4 = 0x00#8)

/-- Drawing the same sprite twice at the same place restores the display, clamped or not (R118, last row). -/
def Obligations.DrawingTwiceRestoresTheDisplay : Prop :=
  ∀ (x y n : Nibble) (s t u : State), exec (.drw x y n) s = .next t → t.reg x = s.reg x → t.reg y = s.reg y →
    exec (.drw x y n) t = .next u → u.disp = s.disp

/-- The read port, R106, R145: pixel `(px, py)` is bit `64 * py + px`. -/
def Obligations.ReadPortShowsEveryPixel : Prop :=
  ∀ (s : State) (px : Fin 64) (py : Fin 32),
    answer .readDisplay s = .display s.disp.bits ∧
    s.disp.bits.getLsbD (64 * py.val + px.val) = s.disp.pixel px py ∧ after .readDisplay s = .next s

/-! ## Timers and keypad -/

/-- The timer instructions, R124 to R126: the value before the cycle's decrement is read, any byte is written, and the
decrement of the same cycle follows. -/
def Obligations.TimerTransfers : Prop :=
  ∀ (x : Nibble) (s : State),
    decode (0xF#4 ++ x ++ 0x07#8) = .ldVxDt x ∧ decode (0xF#4 ++ x ++ 0x15#8) = .ldDtVx x ∧
    decode (0xF#4 ++ x ++ 0x18#8) = .ldStVx x ∧
    (∃ t, exec (.ldVxDt x) s = .next t ∧ t.reg x = s.dt ∧ t.pc = s.pc + 2 ∧ Frame [x] [] s t) ∧
    (∃ t, exec (.ldDtVx x) s = .next t ∧ t.dt = s.reg x ∧ t.pc = s.pc + 2 ∧ Frame [] [.dt] s t) ∧
    (∃ t, exec (.ldStVx x) s = .next t ∧ t.st = s.reg x ∧ t.pc = s.pc + 2 ∧ Frame [] [.st] s t) ∧
    (s.suspended = false → s.fetchInstr = .ldVxDt x →
      ∃ t, step s = .next t ∧ t.reg x = s.dt ∧ t.dt.toNat = s.dt.toNat - 1) ∧
    (s.suspended = false → s.fetchInstr = .ldDtVx x → ∃ t, step s = .next t ∧ t.dt.toNat = (s.reg x).toNat - 1) ∧
    (s.suspended = false → s.fetchInstr = .ldStVx x →
      ∃ t, step s = .next t ∧ t.st.toNat = (s.reg x).toNat - 1 ∧ (t.soundActive = true ↔ 1 < (s.reg x).toNat))

/-- `SKP` and `SKNP`, R129 to R131: the key is the low nibble of `V[x]`. -/
def Obligations.KeySkips : Prop :=
  ∀ (x : Nibble) (s : State),
    decode (0xE#4 ++ x ++ 0x9E#8) = .skp x ∧ decode (0xE#4 ++ x ++ 0xA1#8) = .sknp x ∧
    (∃ t, exec (.skp x) s = .next t ∧
      t.pc = (if s.keys.getLsbD ((s.reg x).toNat % 16) = true then s.pc + 4 else s.pc + 2) ∧ Frame [] [] s t) ∧
    (∃ t, exec (.sknp x) s = .next t ∧
      t.pc = (if s.keys.getLsbD ((s.reg x).toNat % 16) = false then s.pc + 4 else s.pc + 2) ∧ Frame [] [] s t)

/-! ## Create and the host -/

/-- The reset state, R32, for the empty image: the font (the default, log entry 1), zeros, and every register. -/
def Obligations.ResetValues : Prop :=
  (∀ a, a < 80 → State.reset.memRead a = defaultFont.toList.getD a 0) ∧
  (∀ a, 80 ≤ a → a < 4096 → State.reset.memRead a = 0x00#8) ∧
  (∀ r, State.reset.reg r = 0x00#8) ∧ State.reset.pc = 0x0200 ∧ State.reset.i = 0x0000 ∧
  State.reset.sp.val = 0 ∧ (∀ j : Fin 16, State.reset.stack[j] = 0x0000) ∧
  State.reset.dt = 0x00#8 ∧ State.reset.st = 0x00#8 ∧ (∀ px py, State.reset.disp.pixel px py = false) ∧
  State.reset.keys = 0x0000 ∧ State.reset.paused = false ∧ State.reset.fault = .running

/-- `Create(image)` with at most 3584 bytes, R154, for every `FONT`: all previous state of the CORE is discarded.
That the event uses the default `FONT` and that the model's own `draws` is kept are the model's choices (log entries 1 and
2, DESIGN CHOICE), no part of R154. -/
def Obligations.CreateLoadsTheImage : Prop :=
  ∀ (font : Vector Byte 80) (image : List Byte) (s : State), image.length ≤ 3584 →
    (∀ a, a < 80 → (createWith font image s).memRead a = font.toList.getD a 0) ∧
    (∀ a, 80 ≤ a → a < 0x200 → (createWith font image s).memRead a = 0x00#8) ∧
    (∀ k, k < image.length → (createWith font image s).memRead (0x200 + k) = image.getD k 0) ∧
    (∀ a, 0x200 + image.length ≤ a → a < 4096 → (createWith font image s).memRead a = 0x00#8) ∧
    (∀ r, (createWith font image s).reg r = 0x00#8) ∧
    (∀ j : Fin 16, (createWith font image s).stack[j] = 0x0000#16) ∧
    (∀ px py, (createWith font image s).disp.pixel px py = false) ∧
    createWith font image s =
      { mem := (createWith font image s).mem, v := (createWith font image s).v, pc := 0x0200#16, i := 0x0000#16,
        stack := (createWith font image s).stack, sp := 0, dt := 0x00#8, st := 0x00#8,
        disp := (createWith font image s).disp, keys := 0x0000#16, paused := false, fault := .running,
        draws := s.draws } ∧
    after (.create image) s = .next (createWith defaultFont image s)

/-- `Create(image)` with more than 3584 bytes, R155, for every `FONT`: the machine of the empty image, but halted with
`LoadError`; no tick runs, and a legal image starts it normally. That the event uses the default `FONT` and that the
model's own `draws` is kept are the model's choices (log entries 1 and 2, DESIGN CHOICE), no part of R155. -/
def Obligations.OversizedImageIsALoadError : Prop :=
  ∀ (font : Vector Byte 80) (image : List Byte) (s : State), 3584 < image.length →
    createWith font image s = { createWith font [] s with fault := .loadError } ∧
    after (.create image) s = .next (createWith defaultFont image s) ∧
    step (createWith font image s) = .next (createWith font image s) ∧
    ∀ image', image'.length ≤ 3584 → createWith font image' (createWith font image s) = createWith font image' s

/-- `SetKeys`, `SetPause`, `ReadSound`, R146 to R148, and `ReadFault` (R134): what they set, what they answer, and that the
reads change nothing; all of them also while paused or halted. -/
def Obligations.HostPortsWork : Prop :=
  ∀ (k : Word) (b : Bool) (s : State),
    after (.setKeys k) s = .next { s with keys := k } ∧ after (.setPause b) s = .next { s with paused := b } ∧
    after .readSound s = .next s ∧ answer .readSound s = .sound (decide (s.st ≠ 0)) ∧
    after .readFault s = .next s ∧
    (∃ c, answer .readFault s = .fault c ∧ c.toNat =
      (match s.fault with
        | .running => 0 | .stackUnderflow => 1 | .stackOverflow => 2 | .unimplementedSys => 3
        | .unimplementedKeyWait => 4 | .loadError => 5))
end

