-- ==== Sys2Proof/Laws/State.lean ====
section
/-! SUPPORT. One lemma per field per named update of the state, so that no proof unfolds a record update. -/

namespace Sys2Proof.Machine

open Sys2Proof

/-! ### setMem -/

@[simp] theorem State.setMem_mem (s : State) (m : Memory) : (s.setMem m).mem = m := rfl
@[simp] theorem State.setMem_v (s : State) (m : Memory) : (s.setMem m).v = s.v := rfl
@[simp] theorem State.setMem_pc (s : State) (m : Memory) : (s.setMem m).pc = s.pc := rfl
@[simp] theorem State.setMem_i (s : State) (m : Memory) : (s.setMem m).i = s.i := rfl
@[simp] theorem State.setMem_stack (s : State) (m : Memory) : (s.setMem m).stack = s.stack := rfl
@[simp] theorem State.setMem_sp (s : State) (m : Memory) : (s.setMem m).sp = s.sp := rfl
@[simp] theorem State.setMem_dt (s : State) (m : Memory) : (s.setMem m).dt = s.dt := rfl
@[simp] theorem State.setMem_st (s : State) (m : Memory) : (s.setMem m).st = s.st := rfl
@[simp] theorem State.setMem_disp (s : State) (m : Memory) : (s.setMem m).disp = s.disp := rfl
@[simp] theorem State.setMem_keys (s : State) (m : Memory) : (s.setMem m).keys = s.keys := rfl
@[simp] theorem State.setMem_paused (s : State) (m : Memory) : (s.setMem m).paused = s.paused := rfl
@[simp] theorem State.setMem_fault (s : State) (m : Memory) : (s.setMem m).fault = s.fault := rfl
@[simp] theorem State.setMem_draws (s : State) (m : Memory) : (s.setMem m).draws = s.draws := rfl
@[simp] theorem State.setMem_reg (s : State) (m : Memory) (r : Nibble) : (s.setMem m).reg r = s.reg r := rfl
@[simp] theorem State.setMem_indexed (s : State) (m : Memory) (k : Nat) : (s.setMem m).indexed k = s.indexed k := rfl

/-! ### setReg -/

@[simp] theorem State.setReg_mem (s : State) (x : Nibble) (b : Byte) : (s.setReg x b).mem = s.mem := rfl
@[simp] theorem State.setReg_v (s : State) (x : Nibble) (b : Byte) : (s.setReg x b).v = s.v.set x.toNat b x.isLt := rfl
@[simp] theorem State.setReg_pc (s : State) (x : Nibble) (b : Byte) : (s.setReg x b).pc = s.pc := rfl
@[simp] theorem State.setReg_i (s : State) (x : Nibble) (b : Byte) : (s.setReg x b).i = s.i := rfl
@[simp] theorem State.setReg_stack (s : State) (x : Nibble) (b : Byte) : (s.setReg x b).stack = s.stack := rfl
@[simp] theorem State.setReg_sp (s : State) (x : Nibble) (b : Byte) : (s.setReg x b).sp = s.sp := rfl
@[simp] theorem State.setReg_dt (s : State) (x : Nibble) (b : Byte) : (s.setReg x b).dt = s.dt := rfl
@[simp] theorem State.setReg_st (s : State) (x : Nibble) (b : Byte) : (s.setReg x b).st = s.st := rfl
@[simp] theorem State.setReg_disp (s : State) (x : Nibble) (b : Byte) : (s.setReg x b).disp = s.disp := rfl
@[simp] theorem State.setReg_keys (s : State) (x : Nibble) (b : Byte) : (s.setReg x b).keys = s.keys := rfl
@[simp] theorem State.setReg_paused (s : State) (x : Nibble) (b : Byte) : (s.setReg x b).paused = s.paused := rfl
@[simp] theorem State.setReg_fault (s : State) (x : Nibble) (b : Byte) : (s.setReg x b).fault = s.fault := rfl
@[simp] theorem State.setReg_draws (s : State) (x : Nibble) (b : Byte) : (s.setReg x b).draws = s.draws := rfl
@[simp] theorem State.setReg_memRead (s : State) (x : Nibble) (b : Byte) (k : Nat) : (s.setReg x b).memRead k = s.memRead k := rfl
@[simp] theorem State.setReg_indexed (s : State) (x : Nibble) (b : Byte) (k : Nat) : (s.setReg x b).indexed k = s.indexed k := rfl

/-! ### setPc -/

@[simp] theorem State.setPc_mem (s : State) (w : Word) : (s.setPc w).mem = s.mem := rfl
@[simp] theorem State.setPc_v (s : State) (w : Word) : (s.setPc w).v = s.v := rfl
@[simp] theorem State.setPc_pc (s : State) (w : Word) : (s.setPc w).pc = w := rfl
@[simp] theorem State.setPc_i (s : State) (w : Word) : (s.setPc w).i = s.i := rfl
@[simp] theorem State.setPc_stack (s : State) (w : Word) : (s.setPc w).stack = s.stack := rfl
@[simp] theorem State.setPc_sp (s : State) (w : Word) : (s.setPc w).sp = s.sp := rfl
@[simp] theorem State.setPc_dt (s : State) (w : Word) : (s.setPc w).dt = s.dt := rfl
@[simp] theorem State.setPc_st (s : State) (w : Word) : (s.setPc w).st = s.st := rfl
@[simp] theorem State.setPc_disp (s : State) (w : Word) : (s.setPc w).disp = s.disp := rfl
@[simp] theorem State.setPc_keys (s : State) (w : Word) : (s.setPc w).keys = s.keys := rfl
@[simp] theorem State.setPc_paused (s : State) (w : Word) : (s.setPc w).paused = s.paused := rfl
@[simp] theorem State.setPc_fault (s : State) (w : Word) : (s.setPc w).fault = s.fault := rfl
@[simp] theorem State.setPc_draws (s : State) (w : Word) : (s.setPc w).draws = s.draws := rfl
@[simp] theorem State.setPc_reg (s : State) (w : Word) (r : Nibble) : (s.setPc w).reg r = s.reg r := rfl
@[simp] theorem State.setPc_memRead (s : State) (w : Word) (k : Nat) : (s.setPc w).memRead k = s.memRead k := rfl
@[simp] theorem State.setPc_indexed (s : State) (w : Word) (k : Nat) : (s.setPc w).indexed k = s.indexed k := rfl

/-! ### advance -/

@[simp] theorem State.advance_mem (s : State) : s.advance.mem = s.mem := rfl
@[simp] theorem State.advance_v (s : State) : s.advance.v = s.v := rfl
@[simp] theorem State.advance_pc (s : State) : s.advance.pc = s.pc + 2 := rfl
@[simp] theorem State.advance_i (s : State) : s.advance.i = s.i := rfl
@[simp] theorem State.advance_stack (s : State) : s.advance.stack = s.stack := rfl
@[simp] theorem State.advance_sp (s : State) : s.advance.sp = s.sp := rfl
@[simp] theorem State.advance_dt (s : State) : s.advance.dt = s.dt := rfl
@[simp] theorem State.advance_st (s : State) : s.advance.st = s.st := rfl
@[simp] theorem State.advance_disp (s : State) : s.advance.disp = s.disp := rfl
@[simp] theorem State.advance_keys (s : State) : s.advance.keys = s.keys := rfl
@[simp] theorem State.advance_paused (s : State) : s.advance.paused = s.paused := rfl
@[simp] theorem State.advance_fault (s : State) : s.advance.fault = s.fault := rfl
@[simp] theorem State.advance_draws (s : State) : s.advance.draws = s.draws := rfl
@[simp] theorem State.advance_reg (s : State) (r : Nibble) : s.advance.reg r = s.reg r := rfl
@[simp] theorem State.advance_memRead (s : State) (k : Nat) : s.advance.memRead k = s.memRead k := rfl
@[simp] theorem State.advance_indexed (s : State) (k : Nat) : s.advance.indexed k = s.indexed k := rfl

/-! ### skipIf -/

@[simp] theorem State.skipIf_mem (s : State) (c : Bool) : (s.skipIf c).mem = s.mem := rfl
@[simp] theorem State.skipIf_v (s : State) (c : Bool) : (s.skipIf c).v = s.v := rfl
@[simp] theorem State.skipIf_pc (s : State) (c : Bool) : (s.skipIf c).pc = if c then s.pc + 4 else s.pc + 2 := rfl
@[simp] theorem State.skipIf_i (s : State) (c : Bool) : (s.skipIf c).i = s.i := rfl
@[simp] theorem State.skipIf_stack (s : State) (c : Bool) : (s.skipIf c).stack = s.stack := rfl
@[simp] theorem State.skipIf_sp (s : State) (c : Bool) : (s.skipIf c).sp = s.sp := rfl
@[simp] theorem State.skipIf_dt (s : State) (c : Bool) : (s.skipIf c).dt = s.dt := rfl
@[simp] theorem State.skipIf_st (s : State) (c : Bool) : (s.skipIf c).st = s.st := rfl
@[simp] theorem State.skipIf_disp (s : State) (c : Bool) : (s.skipIf c).disp = s.disp := rfl
@[simp] theorem State.skipIf_keys (s : State) (c : Bool) : (s.skipIf c).keys = s.keys := rfl
@[simp] theorem State.skipIf_paused (s : State) (c : Bool) : (s.skipIf c).paused = s.paused := rfl
@[simp] theorem State.skipIf_fault (s : State) (c : Bool) : (s.skipIf c).fault = s.fault := rfl
@[simp] theorem State.skipIf_draws (s : State) (c : Bool) : (s.skipIf c).draws = s.draws := rfl
@[simp] theorem State.skipIf_reg (s : State) (c : Bool) (r : Nibble) : (s.skipIf c).reg r = s.reg r := rfl
@[simp] theorem State.skipIf_memRead (s : State) (c : Bool) (k : Nat) : (s.skipIf c).memRead k = s.memRead k := rfl
@[simp] theorem State.skipIf_indexed (s : State) (c : Bool) (k : Nat) : (s.skipIf c).indexed k = s.indexed k := rfl

/-! ### setI -/

@[simp] theorem State.setI_mem (s : State) (w : Word) : (s.setI w).mem = s.mem := rfl
@[simp] theorem State.setI_v (s : State) (w : Word) : (s.setI w).v = s.v := rfl
@[simp] theorem State.setI_pc (s : State) (w : Word) : (s.setI w).pc = s.pc := rfl
@[simp] theorem State.setI_i (s : State) (w : Word) : (s.setI w).i = w := rfl
@[simp] theorem State.setI_stack (s : State) (w : Word) : (s.setI w).stack = s.stack := rfl
@[simp] theorem State.setI_sp (s : State) (w : Word) : (s.setI w).sp = s.sp := rfl
@[simp] theorem State.setI_dt (s : State) (w : Word) : (s.setI w).dt = s.dt := rfl
@[simp] theorem State.setI_st (s : State) (w : Word) : (s.setI w).st = s.st := rfl
@[simp] theorem State.setI_disp (s : State) (w : Word) : (s.setI w).disp = s.disp := rfl
@[simp] theorem State.setI_keys (s : State) (w : Word) : (s.setI w).keys = s.keys := rfl
@[simp] theorem State.setI_paused (s : State) (w : Word) : (s.setI w).paused = s.paused := rfl
@[simp] theorem State.setI_fault (s : State) (w : Word) : (s.setI w).fault = s.fault := rfl
@[simp] theorem State.setI_draws (s : State) (w : Word) : (s.setI w).draws = s.draws := rfl
@[simp] theorem State.setI_reg (s : State) (w : Word) (r : Nibble) : (s.setI w).reg r = s.reg r := rfl
@[simp] theorem State.setI_memRead (s : State) (w : Word) (k : Nat) : (s.setI w).memRead k = s.memRead k := rfl

/-! ### setDt -/

@[simp] theorem State.setDt_mem (s : State) (b : Byte) : (s.setDt b).mem = s.mem := rfl
@[simp] theorem State.setDt_v (s : State) (b : Byte) : (s.setDt b).v = s.v := rfl
@[simp] theorem State.setDt_pc (s : State) (b : Byte) : (s.setDt b).pc = s.pc := rfl
@[simp] theorem State.setDt_i (s : State) (b : Byte) : (s.setDt b).i = s.i := rfl
@[simp] theorem State.setDt_stack (s : State) (b : Byte) : (s.setDt b).stack = s.stack := rfl
@[simp] theorem State.setDt_sp (s : State) (b : Byte) : (s.setDt b).sp = s.sp := rfl
@[simp] theorem State.setDt_dt (s : State) (b : Byte) : (s.setDt b).dt = b := rfl
@[simp] theorem State.setDt_st (s : State) (b : Byte) : (s.setDt b).st = s.st := rfl
@[simp] theorem State.setDt_disp (s : State) (b : Byte) : (s.setDt b).disp = s.disp := rfl
@[simp] theorem State.setDt_keys (s : State) (b : Byte) : (s.setDt b).keys = s.keys := rfl
@[simp] theorem State.setDt_paused (s : State) (b : Byte) : (s.setDt b).paused = s.paused := rfl
@[simp] theorem State.setDt_fault (s : State) (b : Byte) : (s.setDt b).fault = s.fault := rfl
@[simp] theorem State.setDt_draws (s : State) (b : Byte) : (s.setDt b).draws = s.draws := rfl
@[simp] theorem State.setDt_reg (s : State) (b : Byte) (r : Nibble) : (s.setDt b).reg r = s.reg r := rfl
@[simp] theorem State.setDt_memRead (s : State) (b : Byte) (k : Nat) : (s.setDt b).memRead k = s.memRead k := rfl
@[simp] theorem State.setDt_indexed (s : State) (b : Byte) (k : Nat) : (s.setDt b).indexed k = s.indexed k := rfl

/-! ### setSt -/

@[simp] theorem State.setSt_mem (s : State) (b : Byte) : (s.setSt b).mem = s.mem := rfl
@[simp] theorem State.setSt_v (s : State) (b : Byte) : (s.setSt b).v = s.v := rfl
@[simp] theorem State.setSt_pc (s : State) (b : Byte) : (s.setSt b).pc = s.pc := rfl
@[simp] theorem State.setSt_i (s : State) (b : Byte) : (s.setSt b).i = s.i := rfl
@[simp] theorem State.setSt_stack (s : State) (b : Byte) : (s.setSt b).stack = s.stack := rfl
@[simp] theorem State.setSt_sp (s : State) (b : Byte) : (s.setSt b).sp = s.sp := rfl
@[simp] theorem State.setSt_dt (s : State) (b : Byte) : (s.setSt b).dt = s.dt := rfl
@[simp] theorem State.setSt_st (s : State) (b : Byte) : (s.setSt b).st = b := rfl
@[simp] theorem State.setSt_disp (s : State) (b : Byte) : (s.setSt b).disp = s.disp := rfl
@[simp] theorem State.setSt_keys (s : State) (b : Byte) : (s.setSt b).keys = s.keys := rfl
@[simp] theorem State.setSt_paused (s : State) (b : Byte) : (s.setSt b).paused = s.paused := rfl
@[simp] theorem State.setSt_fault (s : State) (b : Byte) : (s.setSt b).fault = s.fault := rfl
@[simp] theorem State.setSt_draws (s : State) (b : Byte) : (s.setSt b).draws = s.draws := rfl
@[simp] theorem State.setSt_reg (s : State) (b : Byte) (r : Nibble) : (s.setSt b).reg r = s.reg r := rfl
@[simp] theorem State.setSt_memRead (s : State) (b : Byte) (k : Nat) : (s.setSt b).memRead k = s.memRead k := rfl
@[simp] theorem State.setSt_indexed (s : State) (b : Byte) (k : Nat) : (s.setSt b).indexed k = s.indexed k := rfl

/-! ### setDisp -/

@[simp] theorem State.setDisp_mem (s : State) (d : Display) : (s.setDisp d).mem = s.mem := rfl
@[simp] theorem State.setDisp_v (s : State) (d : Display) : (s.setDisp d).v = s.v := rfl
@[simp] theorem State.setDisp_pc (s : State) (d : Display) : (s.setDisp d).pc = s.pc := rfl
@[simp] theorem State.setDisp_i (s : State) (d : Display) : (s.setDisp d).i = s.i := rfl
@[simp] theorem State.setDisp_stack (s : State) (d : Display) : (s.setDisp d).stack = s.stack := rfl
@[simp] theorem State.setDisp_sp (s : State) (d : Display) : (s.setDisp d).sp = s.sp := rfl
@[simp] theorem State.setDisp_dt (s : State) (d : Display) : (s.setDisp d).dt = s.dt := rfl
@[simp] theorem State.setDisp_st (s : State) (d : Display) : (s.setDisp d).st = s.st := rfl
@[simp] theorem State.setDisp_disp (s : State) (d : Display) : (s.setDisp d).disp = d := rfl
@[simp] theorem State.setDisp_keys (s : State) (d : Display) : (s.setDisp d).keys = s.keys := rfl
@[simp] theorem State.setDisp_paused (s : State) (d : Display) : (s.setDisp d).paused = s.paused := rfl
@[simp] theorem State.setDisp_fault (s : State) (d : Display) : (s.setDisp d).fault = s.fault := rfl
@[simp] theorem State.setDisp_draws (s : State) (d : Display) : (s.setDisp d).draws = s.draws := rfl
@[simp] theorem State.setDisp_reg (s : State) (d : Display) (r : Nibble) : (s.setDisp d).reg r = s.reg r := rfl
@[simp] theorem State.setDisp_memRead (s : State) (d : Display) (k : Nat) : (s.setDisp d).memRead k = s.memRead k := rfl
@[simp] theorem State.setDisp_indexed (s : State) (d : Display) (k : Nat) : (s.setDisp d).indexed k = s.indexed k := rfl

/-! ### setKeys -/

@[simp] theorem State.setKeys_mem (s : State) (w : Word) : (s.setKeys w).mem = s.mem := rfl
@[simp] theorem State.setKeys_v (s : State) (w : Word) : (s.setKeys w).v = s.v := rfl
@[simp] theorem State.setKeys_pc (s : State) (w : Word) : (s.setKeys w).pc = s.pc := rfl
@[simp] theorem State.setKeys_i (s : State) (w : Word) : (s.setKeys w).i = s.i := rfl
@[simp] theorem State.setKeys_stack (s : State) (w : Word) : (s.setKeys w).stack = s.stack := rfl
@[simp] theorem State.setKeys_sp (s : State) (w : Word) : (s.setKeys w).sp = s.sp := rfl
@[simp] theorem State.setKeys_dt (s : State) (w : Word) : (s.setKeys w).dt = s.dt := rfl
@[simp] theorem State.setKeys_st (s : State) (w : Word) : (s.setKeys w).st = s.st := rfl
@[simp] theorem State.setKeys_disp (s : State) (w : Word) : (s.setKeys w).disp = s.disp := rfl
@[simp] theorem State.setKeys_keys (s : State) (w : Word) : (s.setKeys w).keys = w := rfl
@[simp] theorem State.setKeys_paused (s : State) (w : Word) : (s.setKeys w).paused = s.paused := rfl
@[simp] theorem State.setKeys_fault (s : State) (w : Word) : (s.setKeys w).fault = s.fault := rfl
@[simp] theorem State.setKeys_draws (s : State) (w : Word) : (s.setKeys w).draws = s.draws := rfl
@[simp] theorem State.setKeys_reg (s : State) (w : Word) (r : Nibble) : (s.setKeys w).reg r = s.reg r := rfl
@[simp] theorem State.setKeys_memRead (s : State) (w : Word) (k : Nat) : (s.setKeys w).memRead k = s.memRead k := rfl
@[simp] theorem State.setKeys_indexed (s : State) (w : Word) (k : Nat) : (s.setKeys w).indexed k = s.indexed k := rfl

/-! ### setPaused -/

@[simp] theorem State.setPaused_mem (s : State) (b : Bool) : (s.setPaused b).mem = s.mem := rfl
@[simp] theorem State.setPaused_v (s : State) (b : Bool) : (s.setPaused b).v = s.v := rfl
@[simp] theorem State.setPaused_pc (s : State) (b : Bool) : (s.setPaused b).pc = s.pc := rfl
@[simp] theorem State.setPaused_i (s : State) (b : Bool) : (s.setPaused b).i = s.i := rfl
@[simp] theorem State.setPaused_stack (s : State) (b : Bool) : (s.setPaused b).stack = s.stack := rfl
@[simp] theorem State.setPaused_sp (s : State) (b : Bool) : (s.setPaused b).sp = s.sp := rfl
@[simp] theorem State.setPaused_dt (s : State) (b : Bool) : (s.setPaused b).dt = s.dt := rfl
@[simp] theorem State.setPaused_st (s : State) (b : Bool) : (s.setPaused b).st = s.st := rfl
@[simp] theorem State.setPaused_disp (s : State) (b : Bool) : (s.setPaused b).disp = s.disp := rfl
@[simp] theorem State.setPaused_keys (s : State) (b : Bool) : (s.setPaused b).keys = s.keys := rfl
@[simp] theorem State.setPaused_paused (s : State) (b : Bool) : (s.setPaused b).paused = b := rfl
@[simp] theorem State.setPaused_fault (s : State) (b : Bool) : (s.setPaused b).fault = s.fault := rfl
@[simp] theorem State.setPaused_draws (s : State) (b : Bool) : (s.setPaused b).draws = s.draws := rfl
@[simp] theorem State.setPaused_reg (s : State) (b : Bool) (r : Nibble) : (s.setPaused b).reg r = s.reg r := rfl
@[simp] theorem State.setPaused_memRead (s : State) (b : Bool) (k : Nat) : (s.setPaused b).memRead k = s.memRead k := rfl
@[simp] theorem State.setPaused_indexed (s : State) (b : Bool) (k : Nat) : (s.setPaused b).indexed k = s.indexed k := rfl

/-! ### setFault -/

@[simp] theorem State.setFault_mem (s : State) (c : FaultCode) : (s.setFault c).mem = s.mem := rfl
@[simp] theorem State.setFault_v (s : State) (c : FaultCode) : (s.setFault c).v = s.v := rfl
@[simp] theorem State.setFault_pc (s : State) (c : FaultCode) : (s.setFault c).pc = s.pc := rfl
@[simp] theorem State.setFault_i (s : State) (c : FaultCode) : (s.setFault c).i = s.i := rfl
@[simp] theorem State.setFault_stack (s : State) (c : FaultCode) : (s.setFault c).stack = s.stack := rfl
@[simp] theorem State.setFault_sp (s : State) (c : FaultCode) : (s.setFault c).sp = s.sp := rfl
@[simp] theorem State.setFault_dt (s : State) (c : FaultCode) : (s.setFault c).dt = s.dt := rfl
@[simp] theorem State.setFault_st (s : State) (c : FaultCode) : (s.setFault c).st = s.st := rfl
@[simp] theorem State.setFault_disp (s : State) (c : FaultCode) : (s.setFault c).disp = s.disp := rfl
@[simp] theorem State.setFault_keys (s : State) (c : FaultCode) : (s.setFault c).keys = s.keys := rfl
@[simp] theorem State.setFault_paused (s : State) (c : FaultCode) : (s.setFault c).paused = s.paused := rfl
@[simp] theorem State.setFault_fault (s : State) (c : FaultCode) : (s.setFault c).fault = c := rfl
@[simp] theorem State.setFault_draws (s : State) (c : FaultCode) : (s.setFault c).draws = s.draws := rfl
@[simp] theorem State.setFault_reg (s : State) (c : FaultCode) (r : Nibble) : (s.setFault c).reg r = s.reg r := rfl
@[simp] theorem State.setFault_memRead (s : State) (c : FaultCode) (k : Nat) : (s.setFault c).memRead k = s.memRead k := rfl
@[simp] theorem State.setFault_indexed (s : State) (c : FaultCode) (k : Nat) : (s.setFault c).indexed k = s.indexed k := rfl

/-! ### nextDraw -/

@[simp] theorem State.nextDraw_mem (s : State) : s.nextDraw.mem = s.mem := rfl
@[simp] theorem State.nextDraw_v (s : State) : s.nextDraw.v = s.v := rfl
@[simp] theorem State.nextDraw_pc (s : State) : s.nextDraw.pc = s.pc := rfl
@[simp] theorem State.nextDraw_i (s : State) : s.nextDraw.i = s.i := rfl
@[simp] theorem State.nextDraw_stack (s : State) : s.nextDraw.stack = s.stack := rfl
@[simp] theorem State.nextDraw_sp (s : State) : s.nextDraw.sp = s.sp := rfl
@[simp] theorem State.nextDraw_dt (s : State) : s.nextDraw.dt = s.dt := rfl
@[simp] theorem State.nextDraw_st (s : State) : s.nextDraw.st = s.st := rfl
@[simp] theorem State.nextDraw_disp (s : State) : s.nextDraw.disp = s.disp := rfl
@[simp] theorem State.nextDraw_keys (s : State) : s.nextDraw.keys = s.keys := rfl
@[simp] theorem State.nextDraw_paused (s : State) : s.nextDraw.paused = s.paused := rfl
@[simp] theorem State.nextDraw_fault (s : State) : s.nextDraw.fault = s.fault := rfl
@[simp] theorem State.nextDraw_draws (s : State) : s.nextDraw.draws = s.draws + 1 := rfl
@[simp] theorem State.nextDraw_reg (s : State) (r : Nibble) : s.nextDraw.reg r = s.reg r := rfl
@[simp] theorem State.nextDraw_memRead (s : State) (k : Nat) : s.nextDraw.memRead k = s.memRead k := rfl
@[simp] theorem State.nextDraw_indexed (s : State) (k : Nat) : s.nextDraw.indexed k = s.indexed k := rfl

/-! ### memWrite -/

@[simp] theorem State.memWrite_mem (s : State) (a : Nat) (b : Byte) : (s.memWrite a b).mem = s.mem.write (cellOf a) b := rfl
@[simp] theorem State.memWrite_v (s : State) (a : Nat) (b : Byte) : (s.memWrite a b).v = s.v := rfl
@[simp] theorem State.memWrite_pc (s : State) (a : Nat) (b : Byte) : (s.memWrite a b).pc = s.pc := rfl
@[simp] theorem State.memWrite_i (s : State) (a : Nat) (b : Byte) : (s.memWrite a b).i = s.i := rfl
@[simp] theorem State.memWrite_stack (s : State) (a : Nat) (b : Byte) : (s.memWrite a b).stack = s.stack := rfl
@[simp] theorem State.memWrite_sp (s : State) (a : Nat) (b : Byte) : (s.memWrite a b).sp = s.sp := rfl
@[simp] theorem State.memWrite_dt (s : State) (a : Nat) (b : Byte) : (s.memWrite a b).dt = s.dt := rfl
@[simp] theorem State.memWrite_st (s : State) (a : Nat) (b : Byte) : (s.memWrite a b).st = s.st := rfl
@[simp] theorem State.memWrite_disp (s : State) (a : Nat) (b : Byte) : (s.memWrite a b).disp = s.disp := rfl
@[simp] theorem State.memWrite_keys (s : State) (a : Nat) (b : Byte) : (s.memWrite a b).keys = s.keys := rfl
@[simp] theorem State.memWrite_paused (s : State) (a : Nat) (b : Byte) : (s.memWrite a b).paused = s.paused := rfl
@[simp] theorem State.memWrite_fault (s : State) (a : Nat) (b : Byte) : (s.memWrite a b).fault = s.fault := rfl
@[simp] theorem State.memWrite_draws (s : State) (a : Nat) (b : Byte) : (s.memWrite a b).draws = s.draws := rfl
@[simp] theorem State.memWrite_reg (s : State) (a : Nat) (b : Byte) (r : Nibble) : (s.memWrite a b).reg r = s.reg r := rfl
@[simp] theorem State.memWrite_indexed (s : State) (a : Nat) (b : Byte) (k : Nat) : (s.memWrite a b).indexed k = s.indexed k := rfl

/-! ### setFlag -/

@[simp] theorem State.setFlag_mem (s : State) (c : Bool) : (s.setFlag c).mem = s.mem := rfl
@[simp] theorem State.setFlag_pc (s : State) (c : Bool) : (s.setFlag c).pc = s.pc := rfl
@[simp] theorem State.setFlag_i (s : State) (c : Bool) : (s.setFlag c).i = s.i := rfl
@[simp] theorem State.setFlag_stack (s : State) (c : Bool) : (s.setFlag c).stack = s.stack := rfl
@[simp] theorem State.setFlag_sp (s : State) (c : Bool) : (s.setFlag c).sp = s.sp := rfl
@[simp] theorem State.setFlag_dt (s : State) (c : Bool) : (s.setFlag c).dt = s.dt := rfl
@[simp] theorem State.setFlag_st (s : State) (c : Bool) : (s.setFlag c).st = s.st := rfl
@[simp] theorem State.setFlag_disp (s : State) (c : Bool) : (s.setFlag c).disp = s.disp := rfl
@[simp] theorem State.setFlag_keys (s : State) (c : Bool) : (s.setFlag c).keys = s.keys := rfl
@[simp] theorem State.setFlag_paused (s : State) (c : Bool) : (s.setFlag c).paused = s.paused := rfl
@[simp] theorem State.setFlag_fault (s : State) (c : Bool) : (s.setFlag c).fault = s.fault := rfl
@[simp] theorem State.setFlag_draws (s : State) (c : Bool) : (s.setFlag c).draws = s.draws := rfl
@[simp] theorem State.setFlag_memRead (s : State) (c : Bool) (k : Nat) : (s.setFlag c).memRead k = s.memRead k := rfl
@[simp] theorem State.setFlag_indexed (s : State) (c : Bool) (k : Nat) : (s.setFlag c).indexed k = s.indexed k := rfl

/-! ### setResultFlag -/

@[simp] theorem State.setResultFlag_mem (s : State) (x : Nibble) (b : Byte) (c : Bool) : (s.setResultFlag x b c).mem = s.mem := rfl
@[simp] theorem State.setResultFlag_pc (s : State) (x : Nibble) (b : Byte) (c : Bool) : (s.setResultFlag x b c).pc = s.pc := rfl
@[simp] theorem State.setResultFlag_i (s : State) (x : Nibble) (b : Byte) (c : Bool) : (s.setResultFlag x b c).i = s.i := rfl
@[simp] theorem State.setResultFlag_stack (s : State) (x : Nibble) (b : Byte) (c : Bool) : (s.setResultFlag x b c).stack = s.stack := rfl
@[simp] theorem State.setResultFlag_sp (s : State) (x : Nibble) (b : Byte) (c : Bool) : (s.setResultFlag x b c).sp = s.sp := rfl
@[simp] theorem State.setResultFlag_dt (s : State) (x : Nibble) (b : Byte) (c : Bool) : (s.setResultFlag x b c).dt = s.dt := rfl
@[simp] theorem State.setResultFlag_st (s : State) (x : Nibble) (b : Byte) (c : Bool) : (s.setResultFlag x b c).st = s.st := rfl
@[simp] theorem State.setResultFlag_disp (s : State) (x : Nibble) (b : Byte) (c : Bool) : (s.setResultFlag x b c).disp = s.disp := rfl
@[simp] theorem State.setResultFlag_keys (s : State) (x : Nibble) (b : Byte) (c : Bool) : (s.setResultFlag x b c).keys = s.keys := rfl
@[simp] theorem State.setResultFlag_paused (s : State) (x : Nibble) (b : Byte) (c : Bool) : (s.setResultFlag x b c).paused = s.paused := rfl
@[simp] theorem State.setResultFlag_fault (s : State) (x : Nibble) (b : Byte) (c : Bool) : (s.setResultFlag x b c).fault = s.fault := rfl
@[simp] theorem State.setResultFlag_draws (s : State) (x : Nibble) (b : Byte) (c : Bool) : (s.setResultFlag x b c).draws = s.draws := rfl
@[simp] theorem State.setResultFlag_memRead (s : State) (x : Nibble) (b : Byte) (c : Bool) (k : Nat) : (s.setResultFlag x b c).memRead k = s.memRead k := rfl
@[simp] theorem State.setResultFlag_indexed (s : State) (x : Nibble) (b : Byte) (c : Bool) (k : Nat) : (s.setResultFlag x b c).indexed k = s.indexed k := rfl

/-! ### tickTimers -/

@[simp] theorem State.tickTimers_mem (s : State) : s.tickTimers.mem = s.mem := rfl
@[simp] theorem State.tickTimers_v (s : State) : s.tickTimers.v = s.v := rfl
@[simp] theorem State.tickTimers_pc (s : State) : s.tickTimers.pc = s.pc := rfl
@[simp] theorem State.tickTimers_i (s : State) : s.tickTimers.i = s.i := rfl
@[simp] theorem State.tickTimers_stack (s : State) : s.tickTimers.stack = s.stack := rfl
@[simp] theorem State.tickTimers_sp (s : State) : s.tickTimers.sp = s.sp := rfl
@[simp] theorem State.tickTimers_dt (s : State) : s.tickTimers.dt = countdown s.dt := rfl
@[simp] theorem State.tickTimers_st (s : State) : s.tickTimers.st = countdown s.st := rfl
@[simp] theorem State.tickTimers_disp (s : State) : s.tickTimers.disp = s.disp := rfl
@[simp] theorem State.tickTimers_keys (s : State) : s.tickTimers.keys = s.keys := rfl
@[simp] theorem State.tickTimers_paused (s : State) : s.tickTimers.paused = s.paused := rfl
@[simp] theorem State.tickTimers_fault (s : State) : s.tickTimers.fault = s.fault := rfl
@[simp] theorem State.tickTimers_draws (s : State) : s.tickTimers.draws = s.draws := rfl
@[simp] theorem State.tickTimers_reg (s : State) (r : Nibble) : s.tickTimers.reg r = s.reg r := rfl
@[simp] theorem State.tickTimers_memRead (s : State) (k : Nat) : s.tickTimers.memRead k = s.memRead k := rfl
@[simp] theorem State.tickTimers_indexed (s : State) (k : Nat) : s.tickTimers.indexed k = s.indexed k := rfl

/-! ### The two register updates read back -/

/-- A register write changes the register it names and no other (R16). -/
@[simp] theorem State.setReg_reg (s : State) (x : Nibble) (b : Byte) (r : Nibble) :
    (s.setReg x b).reg r = if r = x then b else s.reg r := by
  simp only [State.setReg, State.reg, Vector.getElem_set, BitVec.toNat_eq, eq_comm]

/-- A flag write leaves the flag byte in `VF` and every other register (R17). -/
@[simp] theorem State.setFlag_reg (s : State) (c : Bool) (r : Nibble) :
    (s.setFlag c).reg r = if r = flagReg then flagByte c else s.reg r := by
  simp [State.setFlag]

/-- The two writes of R97 read back: `VF` holds the flag, `V[x]` the result unless `x = 0xF`. -/
@[simp] theorem State.setResultFlag_reg (s : State) (x : Nibble) (b : Byte) (c : Bool) (r : Nibble) :
    (s.setResultFlag x b c).reg r = if r = flagReg then flagByte c else if r = x then b else s.reg r := by
  simp [State.setResultFlag]

/-- A fault write into the value already there changes nothing. -/
theorem State.setFault_self (s : State) : s.setFault s.fault = s := rfl

end Sys2Proof.Machine
end

