-- ==== Sys2Proof/Laws/Display.lean ====
section
/-! SUPPORT. What the display operations and one step of the detector do (44_display.md R107, R108, R111). -/

namespace Sys2Proof.Machine

open Sys2Proof

/-- Every pixel of a cleared buffer is off (R107). -/
@[simp] theorem Display.pixel_clear (px : Fin 64) (py : Fin 32) : Display.clear.pixel px py = false := by
  simp [Display.clear, Display.pixel]

/-- A toggle inverts its own pixel and leaves every other (R108). -/
@[simp] theorem Display.pixel_toggle (d : Display) (px qx : Fin 64) (py qy : Fin 32) :
    (d.toggle px py).pixel qx qy = (d.pixel qx qy ^^ decide (qx = px ∧ qy = py)) := by
  unfold Display.toggle Display.pixel
  rw [Vector.getElem_set]
  by_cases hy : py.val = qy.val
  · have hy' : qy = py := Fin.ext hy.symm
    subst hy'
    simp only [if_true, BitVec.getLsbD_xor, BitVec.getLsbD_shiftLeft, BitVec.getLsbD_one]
    have hq := qx.isLt
    congr 1
    by_cases hx : qx = px
    · subst hx; simp
    · have hne : qx.val ≠ px.val := fun e => hx (Fin.ext e)
      by_cases hlt : qx.val < px.val
      · simp [hx, hlt]
      · have : ¬ (qx.val - px.val = 0) := by omega
        simp [hx, this]
  · have hy' : ¬ qy = py := fun e => hy (by rw [e])
    simp [hy, hy']

/-- Two buffers with the same pixels are the same buffer. -/
theorem Display.ext_pixel (d e : Display) (h : ∀ px py, d.pixel px py = e.pixel px py) : d = e := by
  apply Vector.ext
  intro i hi
  apply BitVec.eq_of_getLsbD_eq
  intro j hj
  exact h ⟨j, hj⟩ ⟨i, hi⟩

/-- One toggle's effect on the buffer, R108. -/
@[simp] theorem Drawing.hit_disp (g : Drawing) (px : Fin 64) (py : Fin 32) :
    (g.hit px py).disp = g.disp.toggle px py := rfl

/-- One toggle's effect on the detector: the new value of the pixel is the inverse of the old (R108, R111). -/
@[simp] theorem Drawing.hit_flag (g : Drawing) (px : Fin 64) (py : Fin 32) :
    (g.hit px py).flag = (g.flag || !g.disp.pixel px py) := by
  simp [Drawing.hit]

end Sys2Proof.Machine
end

