-- ==== Sys2Proof/Laws/Fields.lean ====
section
/-! SUPPORT. The fields of a word put together from fields (30_encoding.md R50, R51), for every shape the encoder uses. -/

namespace Sys2Proof

/-- A slice of two concatenated values that lies in the low one. -/
theorem slice_append_low {m k : Nat} (hi : BitVec m) (lo : BitVec k) (start len : Nat) (h : start + len ≤ k) :
    BitVec.extractLsb' start len (hi ++ lo) = BitVec.extractLsb' start len lo := by
  apply BitVec.eq_of_getLsbD_eq
  intro i hl
  have : start + i < k := by omega
  simp [BitVec.getLsbD_append, hl, this]

/-- A slice of two concatenated values that lies in the high one. -/
theorem slice_append_high {m k : Nat} (hi : BitVec m) (lo : BitVec k) (start len : Nat) (h : k ≤ start) :
    BitVec.extractLsb' start len (hi ++ lo) = BitVec.extractLsb' (start - k) len hi := by
  apply BitVec.eq_of_getLsbD_eq
  intro i hl
  have h1 : ¬ start + i < k := by omega
  have h2 : start + i - k = start - k + i := by omega
  simp [BitVec.getLsbD_append, hl, h1, h2]

/-- The fields of a format `NNN` word. -/
theorem fieldsOf_nnn (op : Nibble) (nnn : Addr) :
    (fieldsOf (op ++ nnn)).op = op ∧ (fieldsOf (op ++ nnn)).nnn = nnn := by
  constructor
  · change BitVec.extractLsb' 12 4 (op ++ nnn : BitVec (4 + 12)) = op
    rw [slice_append_high _ _ _ _ (by decide)]
    exact BitVec.extractLsb'_eq_self
  · change BitVec.extractLsb' 0 12 (op ++ nnn : BitVec (4 + 12)) = nnn
    rw [slice_append_low _ _ _ _ (by decide)]
    exact BitVec.extractLsb'_eq_self

/-- The fields of a format `XNN` or `X` word. -/
theorem fieldsOf_xnn (op x : Nibble) (nn : Byte) :
    (fieldsOf (op ++ x ++ nn)).op = op ∧ (fieldsOf (op ++ x ++ nn)).x = x ∧ (fieldsOf (op ++ x ++ nn)).nn = nn := by
  refine ⟨?_, ?_, ?_⟩
  · change BitVec.extractLsb' 12 4 (op ++ x ++ nn : BitVec (4 + 4 + 8)) = op
    rw [slice_append_high _ _ _ _ (by decide), slice_append_high _ _ _ _ (by decide)]
    exact BitVec.extractLsb'_eq_self
  · change BitVec.extractLsb' 8 4 (op ++ x ++ nn : BitVec (4 + 4 + 8)) = x
    rw [slice_append_high _ _ _ _ (by decide), slice_append_low _ _ _ _ (by decide)]
    exact BitVec.extractLsb'_eq_self
  · change BitVec.extractLsb' 0 8 (op ++ x ++ nn : BitVec (4 + 4 + 8)) = nn
    rw [slice_append_low _ _ _ _ (by decide)]
    exact BitVec.extractLsb'_eq_self

/-- The fields of a format `XY` or `XYN` word. -/
theorem fieldsOf_xyn (op x y n : Nibble) :
    (fieldsOf (op ++ x ++ y ++ n)).op = op ∧ (fieldsOf (op ++ x ++ y ++ n)).x = x ∧
    (fieldsOf (op ++ x ++ y ++ n)).y = y ∧ (fieldsOf (op ++ x ++ y ++ n)).n = n := by
  refine ⟨?_, ?_, ?_, ?_⟩
  · change BitVec.extractLsb' 12 4 (op ++ x ++ y ++ n : BitVec (4 + 4 + 4 + 4)) = op
    rw [slice_append_high _ _ _ _ (by decide), slice_append_high _ _ _ _ (by decide),
      slice_append_high _ _ _ _ (by decide)]
    exact BitVec.extractLsb'_eq_self
  · change BitVec.extractLsb' 8 4 (op ++ x ++ y ++ n : BitVec (4 + 4 + 4 + 4)) = x
    rw [slice_append_high _ _ _ _ (by decide), slice_append_high _ _ _ _ (by decide),
      slice_append_low _ _ _ _ (by decide)]
    exact BitVec.extractLsb'_eq_self
  · change BitVec.extractLsb' 4 4 (op ++ x ++ y ++ n : BitVec (4 + 4 + 4 + 4)) = y
    rw [slice_append_high _ _ _ _ (by decide), slice_append_low _ _ _ _ (by decide)]
    exact BitVec.extractLsb'_eq_self
  · change BitVec.extractLsb' 0 4 (op ++ x ++ y ++ n : BitVec (4 + 4 + 4 + 4)) = n
    rw [slice_append_low _ _ _ _ (by decide)]
    exact BitVec.extractLsb'_eq_self

end Sys2Proof
end

