-- ==== Sys2Proof/Laws/Memory.lean ====
section
/-! SUPPORT. What the memory operations do: a read after a write, the canonical form, and the loops of the bulk
transfers. -/

namespace Sys2Proof.Machine

open Sys2Proof

/-! ### One entry in front -/

theorem Memory.read_consCell (m : Memory) (a : Nat) (b : Byte) (k : Nat)
    (h : m.read a = Memory.unlisted a) :
    (Memory.consCell a b m).read k = if k = a then b else m.read k := by
  unfold Memory.consCell
  split
  · rename_i hb
    split
    · rename_i hk; rw [hk, hb]; exact h
    · rfl
  · by_cases hk : k = a
    · subst hk; simp [Memory.read]
    · have h' : ¬ a = k := fun e => hk e.symm
      simp [Memory.read, hk, h']

/-! ### The canonical form -/

theorem Memory.wfFrom_mono {lo lo' : Nat} (m : Memory) (h : m.wfFrom lo = true) (hl : lo' ≤ lo) :
    m.wfFrom lo' = true := by
  cases m with
  | nil => rfl
  | cons e r =>
    obtain ⟨a, b⟩ := e
    simp only [Memory.wfFrom, Bool.and_eq_true, decide_eq_true_eq] at h ⊢
    exact ⟨⟨⟨by omega, h.1.1.2⟩, h.1.2⟩, h.2⟩

/-- Below its first address a canonical memory is unlisted. -/
theorem Memory.read_below {lo : Nat} (m : Memory) (h : m.wfFrom lo = true) {a : Nat} (ha : a < lo) :
    m.read a = Memory.unlisted a := by
  induction m generalizing lo with
  | nil => rfl
  | cons e r ih =>
    obtain ⟨k, b⟩ := e
    simp only [Memory.wfFrom, Bool.and_eq_true, decide_eq_true_eq] at h
    have hk : k ≠ a := by omega
    simp only [Memory.read, hk, if_false]
    exact ih h.2 (by omega)

theorem Memory.wfFrom_consCell {lo a : Nat} {b : Byte} (m : Memory) (h : m.wfFrom (a + 1) = true)
    (hl : lo ≤ a) (ha : a < Config.memSize) : (Memory.consCell a b m).wfFrom lo = true := by
  unfold Memory.consCell
  split
  · exact Memory.wfFrom_mono m h (by omega)
  · rename_i hb
    simp only [Memory.wfFrom, Bool.and_eq_true, decide_eq_true_eq]
    exact ⟨⟨⟨hl, ha⟩, hb⟩, h⟩

/-- A store keeps the canonical form. -/
theorem Memory.wfFrom_write {lo a : Nat} {b : Byte} (m : Memory) (h : m.wfFrom lo = true)
    (hl : lo ≤ a) (ha : a < Config.memSize) : (m.write a b).wfFrom lo = true := by
  induction m generalizing lo with
  | nil => exact Memory.wfFrom_consCell [] rfl hl ha
  | cons e r ih =>
    obtain ⟨k, c⟩ := e
    simp only [Memory.wfFrom, Bool.and_eq_true, decide_eq_true_eq] at h
    obtain ⟨⟨⟨h1, h2⟩, h3⟩, h4⟩ := h
    unfold Memory.write
    split
    · rename_i hk
      refine Memory.wfFrom_consCell _ ?_ hl ha
      simp only [Memory.wfFrom, Bool.and_eq_true, decide_eq_true_eq]
      exact ⟨⟨⟨by omega, h2⟩, h3⟩, h4⟩
    · split
      · rename_i hk; subst hk
        exact Memory.wfFrom_consCell r h4 hl ha
      · simp only [Memory.wfFrom, Bool.and_eq_true, decide_eq_true_eq]
        exact ⟨⟨⟨h1, h2⟩, h3⟩, ih h4 (by omega)⟩

theorem Memory.wf_write {a : Nat} {b : Byte} (m : Memory) (h : m.wf = true) (ha : a < Config.memSize) :
    (m.write a b).wf = true :=
  Memory.wfFrom_write m h (Nat.zero_le a) ha

theorem Memory.wf_nil : Memory.wf [] = true := rfl

theorem cellOf_lt (a : Nat) : cellOf a < Config.memSize := Nat.mod_lt _ (by decide)

/-- The store instruction's primitive keeps the canonical form. -/
theorem State.wf_memWrite (s : State) (a : Nat) (b : Byte) (h : s.mem.wf = true) :
    (s.memWrite a b).mem.wf = true :=
  Memory.wf_write s.mem h (cellOf_lt a)

/-! ### A read after a write -/

/-- A write to a list whose entries rise from `lo` on: the address reads as written, every other as before. -/
theorem Memory.read_write_from {lo a : Nat} {b : Byte} (m : Memory) (h : m.wfFrom lo = true) (k : Nat) :
    (m.write a b).read k = if k = a then b else m.read k := by
  induction m generalizing lo with
  | nil => exact Memory.read_consCell [] a b k rfl
  | cons e r ih =>
    obtain ⟨j, c⟩ := e
    have h0 := h
    simp only [Memory.wfFrom, Bool.and_eq_true, decide_eq_true_eq] at h
    unfold Memory.write
    split
    · rename_i hj
      have hw : Memory.wfFrom j ((j, c) :: r) = true := by
        simp only [Memory.wfFrom, Bool.and_eq_true, decide_eq_true_eq]
        exact ⟨⟨⟨Nat.le_refl j, h.1.1.2⟩, h.1.2⟩, h.2⟩
      exact Memory.read_consCell _ a b k (Memory.read_below _ hw hj)
    · split
      · rename_i hj; subst hj
        rw [Memory.read_consCell r a b k (Memory.read_below r h.2 (by omega))]
        by_cases hk : k = a
        · simp [hk]
        · have hk' : ¬ a = k := fun e => hk e.symm
          simp [hk, Memory.read, hk']
      · rename_i hj hja
        simp only [Memory.read]
        rw [ih h.2]
        by_cases hk : j = k
        · subst hk; simp; omega
        · simp [hk]

/-- A read after a write, on any canonical memory. -/
theorem Memory.read_write (m : Memory) (h : m.wf = true) (a : Nat) (b : Byte) (k : Nat) :
    (m.write a b).read k = if k = a then b else m.read k :=
  Memory.read_write_from m h k

/-- A read after a store, R33, R34: the cell of the address reads as written, every other cell as before. -/
theorem State.memRead_memWrite (s : State) (h : s.mem.wf = true) (a : Nat) (b : Byte) (k : Nat) :
    (s.memWrite a b).memRead k = if cellOf k = cellOf a then b else s.memRead k :=
  Memory.read_write s.mem h _ b _

theorem State.memRead_cellOf (s : State) (a : Nat) : s.memRead (cellOf a) = s.memRead a := by
  simp [State.memRead, cellOf]

/-! ### Cells of consecutive addresses -/

/-- Consecutive addresses of fewer than 4096 reach different cells (R34). -/
theorem cellOf_add_inj {a j k : Nat} (hj : j < Config.memSize) (hk : k < Config.memSize)
    (h : cellOf (a + j) = cellOf (a + k)) : j = k := by
  simp only [cellOf, Config.memSize] at *
  omega

/-! ### Stores of bytes in a row -/

theorem Memory.wf_writeBytes (bs : List Byte) (m : Memory) (base : Nat) (h : m.wf = true)
    (hb : base + bs.length ≤ Config.memSize) : (m.writeBytes base bs).wf = true := by
  induction bs generalizing m base with
  | nil => exact h
  | cons b r ih =>
    simp only [List.length_cons] at hb
    exact ih (m.write base b) (base + 1) (Memory.wf_write m h (by omega)) (by omega)

/-- Bytes stored in a row read back in order; every other address reads as before. -/
theorem Memory.read_writeBytes (bs : List Byte) (m : Memory) (base : Nat) (h : m.wf = true)
    (hb : base + bs.length ≤ Config.memSize) (k : Nat) :
    (m.writeBytes base bs).read k =
      if base ≤ k ∧ k < base + bs.length then bs.getD (k - base) 0 else m.read k := by
  induction bs generalizing m base with
  | nil => simp [Memory.writeBytes]
  | cons b r ih =>
    simp only [List.length_cons] at hb
    rw [Memory.writeBytes, ih (m.write base b) (base + 1) (Memory.wf_write m h (by omega)) (by omega),
      Memory.read_write m h]
    simp only [List.length_cons]
    by_cases h1 : k = base
    · subst h1
      simp
    · by_cases h2 : base + 1 ≤ k ∧ k < base + 1 + r.length
      · have h3 : base ≤ k ∧ k < base + (r.length + 1) := by omega
        have h4 : k - base = (k - (base + 1)) + 1 := by omega
        rw [if_pos h2, if_pos h3, h4, List.getD_cons_succ]
      · have h3 : ¬ (base ≤ k ∧ k < base + (r.length + 1)) := by omega
        rw [if_neg h2, if_neg h3, if_neg h1]

/-! ### The loop of LD [I],Vx, R102 -/

theorem State.storeRegs_zero (s : State) : s.storeRegs 0 = s := rfl

theorem State.storeRegs_succ (s : State) (n : Nat) :
    s.storeRegs (n + 1) = (s.storeRegs n).memWrite (s.indexed n) (s.regAt n) := by
  simp only [State.storeRegs, List.range_succ, List.foldl_append, List.foldl_cons, List.foldl_nil]

/-- The loop changes nothing but `MEM`. -/
theorem State.storeRegs_eq (s : State) (n : Nat) : s.storeRegs n = s.setMem (s.storeRegs n).mem := by
  induction n with
  | zero => rfl
  | succ n ih => rw [State.storeRegs_succ, ih]; rfl

theorem State.wf_storeRegs (s : State) (n : Nat) (h : s.mem.wf = true) : (s.storeRegs n).mem.wf = true := by
  induction n with
  | zero => exact h
  | succ n ih => rw [State.storeRegs_succ]; exact State.wf_memWrite _ _ _ ih

/-- What the loop leaves in memory: register `k` in the cell of `I + k`, every other cell as before. -/
theorem State.memRead_storeRegs (s : State) (h : s.mem.wf = true) (n : Nat) (hn : n ≤ 16) (a : Nat) :
    (∀ k, k < n → cellOf a = cellOf (s.indexed k) → (s.storeRegs n).memRead a = s.regAt k) ∧
    ((∀ k, k < n → cellOf a ≠ cellOf (s.indexed k)) → (s.storeRegs n).memRead a = s.memRead a) := by
  induction n with
  | zero => exact ⟨fun k hk => absurd hk (by omega), fun _ => rfl⟩
  | succ n ih =>
    obtain ⟨ih1, ih2⟩ := ih (by omega)
    rw [State.storeRegs_succ, State.memRead_memWrite _ (State.wf_storeRegs s n h)]
    refine ⟨fun k hk hc => ?_, fun hc => ?_⟩
    · by_cases hkn : k = n
      · subst hkn; rw [if_pos hc]
      · have hne : ¬ cellOf a = cellOf (s.indexed n) := by
          intro he
          exact hkn (cellOf_add_inj (by simp only [Config.memSize]; omega) (by simp only [Config.memSize]; omega)
            (hc.symm.trans he))
        rw [if_neg hne]
        exact ih1 k (by omega) hc
    · rw [if_neg (hc n (by omega))]
      exact ih2 (fun k hk => hc k (by omega))

/-! ### The loop of LD Vx,[I], R103 -/

theorem State.loadRegs_zero (s : State) : s.loadRegs 0 = s := rfl

theorem State.loadRegs_succ (s : State) (n : Nat) :
    s.loadRegs (n + 1) = (s.loadRegs n).setReg (BitVec.ofNat 4 n) (s.memRead (s.indexed n)) := by
  simp only [State.loadRegs, List.range_succ, List.foldl_append, List.foldl_cons, List.foldl_nil]

/-- The loop changes nothing but `V`. -/
theorem State.loadRegs_eq (s : State) (n : Nat) : s.loadRegs n = { s with v := (s.loadRegs n).v } := by
  induction n with
  | zero => rfl
  | succ n ih => rw [State.loadRegs_succ, ih]; rfl

/-- What the loop leaves in the registers: register `r` below `n` the byte at `I + r`, every other as before. -/
theorem State.reg_loadRegs (s : State) (n : Nat) (hn : n ≤ 16) (r : Nibble) :
    (s.loadRegs n).reg r = if r.toNat < n then s.memRead (s.indexed r.toNat) else s.reg r := by
  induction n with
  | zero => simp [State.loadRegs_zero]
  | succ n ih =>
    rw [State.loadRegs_succ, State.setReg_reg, ih (by omega)]
    by_cases hr : r.toNat = n
    · have : r = BitVec.ofNat 4 n := by
        apply BitVec.eq_of_toNat_eq; simp; omega
      rw [if_pos this, if_pos (by omega), hr]
    · have : ¬ r = BitVec.ofNat 4 n := by
        intro he; apply hr; rw [he]; simp; omega
      rw [if_neg this]
      by_cases h2 : r.toNat < n
      · rw [if_pos h2, if_pos (by omega)]
      · rw [if_neg h2, if_neg (by omega)]

end Sys2Proof.Machine
end

