-- ==== Sys2Proof/Laws/PerInstr.lean ====
section
/-! SUPPORT. Per instruction: the encoder's word lies in the row of opcode_table.json that the constructor stands for,
`opcode & mask = match`. -/

namespace Sys2Proof.Laws.TableRow

open Sys2Proof

/-- The `mask` column of opcode_table.json. -/
def rowMask : Instr → Word
  | .cls => 0xFFFF | .ret => 0xFFFF | .sys _ => 0xF000 | .jp _ => 0xF000 | .call _ => 0xF000
  | .seNn _ _ => 0xF000 | .sneNn _ _ => 0xF000 | .seVy _ _ => 0xF00F | .ldNn _ _ => 0xF000 | .addNn _ _ => 0xF000
  | .ldVy _ _ => 0xF00F | .orVy _ _ => 0xF00F | .andVy _ _ => 0xF00F | .xorVy _ _ => 0xF00F | .addVy _ _ => 0xF00F
  | .sub _ _ => 0xF00F | .shr _ _ => 0xF00F | .subn _ _ => 0xF00F | .shl _ _ => 0xF00F | .sneVy _ _ => 0xF00F
  | .ldI _ => 0xF000 | .jpV0 _ => 0xF000 | .rnd _ _ => 0xF000 | .drw _ _ _ => 0xF000 | .skp _ => 0xF0FF
  | .sknp _ => 0xF0FF | .ldVxDt _ => 0xF0FF | .ldVxK _ => 0xF0FF | .ldDtVx _ => 0xF0FF | .ldStVx _ => 0xF0FF
  | .addIVx _ => 0xF0FF | .ldFVx _ => 0xF0FF | .ldBVx _ => 0xF0FF | .ldMemVx _ => 0xF0FF | .ldVxMem _ => 0xF0FF
  | .unrecognized _ => 0x0000

/-- The `match` column of opcode_table.json. -/
def rowMatch : Instr → Word
  | .cls => 0x00E0 | .ret => 0x00EE | .sys _ => 0x0000 | .jp _ => 0x1000 | .call _ => 0x2000
  | .seNn _ _ => 0x3000 | .sneNn _ _ => 0x4000 | .seVy _ _ => 0x5000 | .ldNn _ _ => 0x6000 | .addNn _ _ => 0x7000
  | .ldVy _ _ => 0x8000 | .orVy _ _ => 0x8001 | .andVy _ _ => 0x8002 | .xorVy _ _ => 0x8003 | .addVy _ _ => 0x8004
  | .sub _ _ => 0x8005 | .shr _ _ => 0x8006 | .subn _ _ => 0x8007 | .shl _ _ => 0x800E | .sneVy _ _ => 0x9000
  | .ldI _ => 0xA000 | .jpV0 _ => 0xB000 | .rnd _ _ => 0xC000 | .drw _ _ _ => 0xD000 | .skp _ => 0xE09E
  | .sknp _ => 0xE0A1 | .ldVxDt _ => 0xF007 | .ldVxK _ => 0xF00A | .ldDtVx _ => 0xF015 | .ldStVx _ => 0xF018
  | .addIVx _ => 0xF01E | .ldFVx _ => 0xF029 | .ldBVx _ => 0xF033 | .ldMemVx _ => 0xF055 | .ldVxMem _ => 0xF065
  | .unrecognized _ => 0x0000

/-- The word of `i` matches its row. -/
def Statement (i : Instr) : Prop := encode i &&& rowMask i = rowMatch i

theorem mask_nnn (op : Nibble) (nnn : Addr) : (op ++ nnn : BitVec (4 + 12)) &&& (0xF#4 ++ 0x000#12) = op ++ 0x000#12 := by
  rw [BitVec.and_append]; congr 1
  · exact BitVec.and_allOnes
  · exact BitVec.and_zero

theorem mask_xnn (op x : Nibble) (nn : Byte) :
    (op ++ x ++ nn : BitVec (4 + 4 + 8)) &&& (0xF#4 ++ 0x0#4 ++ 0x00#8) = op ++ 0x0#4 ++ 0x00#8 := by
  rw [BitVec.and_append, BitVec.and_append]; congr 2
  · exact BitVec.and_allOnes
  · exact BitVec.and_zero
  · exact BitVec.and_zero

theorem mask_x (op x : Nibble) (nn : Byte) :
    (op ++ x ++ nn : BitVec (4 + 4 + 8)) &&& (0xF#4 ++ 0x0#4 ++ 0xFF#8) = op ++ 0x0#4 ++ nn := by
  rw [BitVec.and_append, BitVec.and_append]; congr 2
  · exact BitVec.and_allOnes
  · exact BitVec.and_zero
  · exact BitVec.and_allOnes

theorem mask_xy (op x y n : Nibble) :
    (op ++ x ++ y ++ n : BitVec (4 + 4 + 4 + 4)) &&& (0xF#4 ++ 0x0#4 ++ 0x0#4 ++ 0xF#4) = op ++ 0x0#4 ++ 0x0#4 ++ n := by
  rw [BitVec.and_append, BitVec.and_append, BitVec.and_append]; congr 3
  · exact BitVec.and_allOnes
  · exact BitVec.and_zero
  · exact BitVec.and_zero
  · exact BitVec.and_allOnes

theorem mask_xyn (op x y n : Nibble) :
    (op ++ x ++ y ++ n : BitVec (4 + 4 + 4 + 4)) &&& (0xF#4 ++ 0x0#4 ++ 0x0#4 ++ 0x0#4) =
      op ++ 0x0#4 ++ 0x0#4 ++ 0x0#4 := by
  rw [BitVec.and_append, BitVec.and_append, BitVec.and_append]; congr 3
  · exact BitVec.and_allOnes
  · exact BitVec.and_zero
  · exact BitVec.and_zero
  · exact BitVec.and_zero

theorem cls : Statement .cls := rfl
theorem ret : Statement .ret := rfl
theorem sys (nnn : Addr) : Statement (.sys nnn) := mask_nnn 0x0 nnn
theorem jp (nnn : Addr) : Statement (.jp nnn) := mask_nnn 0x1 nnn
theorem call (nnn : Addr) : Statement (.call nnn) := mask_nnn 0x2 nnn
theorem seNn (x : Nibble) (nn : Byte) : Statement (.seNn x nn) := mask_xnn 0x3 x nn
theorem sneNn (x : Nibble) (nn : Byte) : Statement (.sneNn x nn) := mask_xnn 0x4 x nn
theorem seVy (x y : Nibble) : Statement (.seVy x y) := mask_xy 0x5 x y 0x0
theorem ldNn (x : Nibble) (nn : Byte) : Statement (.ldNn x nn) := mask_xnn 0x6 x nn
theorem addNn (x : Nibble) (nn : Byte) : Statement (.addNn x nn) := mask_xnn 0x7 x nn
theorem ldVy (x y : Nibble) : Statement (.ldVy x y) := mask_xy 0x8 x y 0x0
theorem orVy (x y : Nibble) : Statement (.orVy x y) := mask_xy 0x8 x y 0x1
theorem andVy (x y : Nibble) : Statement (.andVy x y) := mask_xy 0x8 x y 0x2
theorem xorVy (x y : Nibble) : Statement (.xorVy x y) := mask_xy 0x8 x y 0x3
theorem addVy (x y : Nibble) : Statement (.addVy x y) := mask_xy 0x8 x y 0x4
theorem sub (x y : Nibble) : Statement (.sub x y) := mask_xy 0x8 x y 0x5
theorem shr (x y : Nibble) : Statement (.shr x y) := mask_xy 0x8 x y 0x6
theorem subn (x y : Nibble) : Statement (.subn x y) := mask_xy 0x8 x y 0x7
theorem shl (x y : Nibble) : Statement (.shl x y) := mask_xy 0x8 x y 0xE
theorem sneVy (x y : Nibble) : Statement (.sneVy x y) := mask_xy 0x9 x y 0x0
theorem ldI (nnn : Addr) : Statement (.ldI nnn) := mask_nnn 0xA nnn
theorem jpV0 (nnn : Addr) : Statement (.jpV0 nnn) := mask_nnn 0xB nnn
theorem rnd (x : Nibble) (nn : Byte) : Statement (.rnd x nn) := mask_xnn 0xC x nn
theorem drw (x y n : Nibble) : Statement (.drw x y n) := mask_xyn 0xD x y n
theorem skp (x : Nibble) : Statement (.skp x) := mask_x 0xE x 0x9E
theorem sknp (x : Nibble) : Statement (.sknp x) := mask_x 0xE x 0xA1
theorem ldVxDt (x : Nibble) : Statement (.ldVxDt x) := mask_x 0xF x 0x07
theorem ldVxK (x : Nibble) : Statement (.ldVxK x) := mask_x 0xF x 0x0A
theorem ldDtVx (x : Nibble) : Statement (.ldDtVx x) := mask_x 0xF x 0x15
theorem ldStVx (x : Nibble) : Statement (.ldStVx x) := mask_x 0xF x 0x18
theorem addIVx (x : Nibble) : Statement (.addIVx x) := mask_x 0xF x 0x1E
theorem ldFVx (x : Nibble) : Statement (.ldFVx x) := mask_x 0xF x 0x29
theorem ldBVx (x : Nibble) : Statement (.ldBVx x) := mask_x 0xF x 0x33
theorem ldMemVx (x : Nibble) : Statement (.ldMemVx x) := mask_x 0xF x 0x55
theorem ldVxMem (x : Nibble) : Statement (.ldVxMem x) := mask_x 0xF x 0x65
theorem unrecognized (opcode : Word) : Statement (.unrecognized opcode) := BitVec.and_zero

end Sys2Proof.Laws.TableRow
end

