-- ==== Sys2Proof/Laws/Stack.lean ====
section
/-! SUPPORT. What `Push`, `Pop` and fault entry do (10_state.md R21, R22; 60_exceptions.md R137). -/

namespace Sys2Proof.Machine

open Sys2Proof

/-- `Push` on a full stack is the overflow. -/
theorem State.push_full (s : State) (w : Word) (h : s.sp.val = 16) : s.push w = none := by
  have : ¬ s.sp.val < 16 := by omega
  simp [State.push, this]

/-- `Push` with an entry free. -/
theorem State.push_free (s : State) (w : Word) (h : s.sp.val < 16) :
    s.push w =
      some { s with stack := s.stack.set s.sp.val w h, sp := ⟨s.sp.val + 1, Nat.succ_lt_succ h⟩ } := by
  simp [State.push, h]

/-- Everything `Push` can do. -/
theorem State.push_cases (s : State) (w : Word) :
    (s.sp.val = 16 ∧ s.push w = none) ∨
    (∃ h : s.sp.val < 16,
      s.push w =
        some { s with stack := s.stack.set s.sp.val w h, sp := ⟨s.sp.val + 1, Nat.succ_lt_succ h⟩ }) := by
  by_cases h : s.sp.val < 16
  · exact .inr ⟨h, State.push_free s w h⟩
  · have := s.sp.isLt
    exact .inl ⟨by omega, State.push_full s w (by omega)⟩

/-- `Pop` on an empty stack is the underflow. -/
theorem State.pop_empty (s : State) (h : s.sp.val = 0) : s.pop = none := by
  simp [State.pop, h]

/-- `Pop` with `k + 1` entries in use gives entry `k`, which is not erased. -/
theorem State.pop_live (s : State) (k : Fin 16) (h : s.sp.val = k.val + 1) :
    s.pop = some (s.stack[k], { s with sp := k.castSucc }) := by
  have h0 : 0 < s.sp.val := by omega
  have h1 : s.sp.val - 1 = k.val := by omega
  simp [State.pop, h0, h1, Fin.castSucc, Fin.castAdd, Fin.castLE]

/-- Everything `Pop` can do. -/
theorem State.pop_cases (s : State) :
    (s.sp.val = 0 ∧ s.pop = none) ∨
    (∃ k : Fin 16, s.sp.val = k.val + 1 ∧ s.pop = some (s.stack[k], { s with sp := k.castSucc })) := by
  by_cases h : s.sp.val = 0
  · exact .inl ⟨h, State.pop_empty s h⟩
  · have hl := s.sp.isLt
    exact .inr ⟨⟨s.sp.val - 1, by omega⟩, by simp; omega, State.pop_live s _ (by simp; omega)⟩

/-- Fault entry changes `FAULT` only (R137). -/
theorem raise_eq (c : FaultCode) (s : State) : raise c s = .next { s with fault := c } := rfl

end Sys2Proof.Machine
end

