-- ==== Sys2Proof/Laws/Step.lean ====
section
/-! SUPPORT. The inversion of one tick (40_cycle_and_system.md R63) and the laws of its parts. -/

namespace Sys2Proof.Machine

open Sys2Proof

theorem State.suspended_eq_false (s : State) :
    s.suspended = false ↔ s.fault = .running ∧ s.paused = false := by
  simp [State.suspended]

/-- A halted or paused tick changes nothing. -/
theorem step_suspended (s : State) (h : s.suspended = true) : step s = .next s := by
  simp [step, h]

/-- Any other tick is the fetched instruction's effect and then the end of the cycle. -/
theorem step_awake (s t : State) (h : s.suspended = false) (he : exec s.fetchInstr s = .next t) :
    step s = .next t.endCycle := by
  simp [step, h, he]

/-- Everything a tick that answers a next state can have done. -/
theorem step_cases (s t : State) (h : step s = .next t) :
    (s.suspended = true ∧ t = s) ∨
    (s.suspended = false ∧ ∃ u, exec s.fetchInstr s = .next u ∧ t = u.endCycle) := by
  unfold step at h
  split at h
  · rename_i hs
    exact .inl ⟨hs, by injection h with h; exact h.symm⟩
  · rename_i hs
    refine .inr ⟨by simpa using hs, ?_⟩
    split at h
    · rename_i u hu
      exact ⟨u, hu, by injection h with h; exact h.symm⟩
    · cases h
    · cases h

/-- The end of a cycle without a fault runs the timer block. -/
theorem State.endCycle_running (s : State) (h : s.fault = .running) : s.endCycle = s.tickTimers := by
  simp [State.endCycle, h]

/-- The end of a cycle that raised a fault changes nothing. -/
theorem State.endCycle_faulted (s : State) (h : s.fault ≠ .running) : s.endCycle = s := by
  simp [State.endCycle, h]

/-- The end of a cycle changes the timers only. -/
theorem State.endCycle_eq (s : State) : ∃ d t, s.endCycle = (s.setDt d).setSt t := by
  by_cases h : s.fault = .running
  · exact ⟨_, _, by rw [State.endCycle_running s h]; rfl⟩
  · exact ⟨s.dt, s.st, by rw [State.endCycle_faulted s h]; rfl⟩

/-- The fetch depends on `MEM` and `PC` only. -/
theorem State.fetchInstr_congr (s t : State) (hm : t.mem = s.mem) (hp : t.pc = s.pc) : t.fetchInstr = s.fetchInstr := by
  simp [State.fetchInstr, State.fetchOpcode, State.memRead, hm, hp]

/-- The high byte of a fetched opcode is the byte at `PC` (R35). -/
theorem State.fetchOpcode_high (s : State) : s.fetchOpcode.extractLsb' 8 8 = s.memRead s.pc.toNat :=
  BitVec.extractLsb'_append_eq_left

/-- The low byte of a fetched opcode is the byte after it (R35). -/
theorem State.fetchOpcode_low (s : State) : s.fetchOpcode.extractLsb' 0 8 = s.memRead (s.pc.toNat + 1) :=
  BitVec.extractLsb'_append_eq_right

/-- One timer's decrement as a number (R120). -/
theorem toNat_countdown (b : Byte) : (countdown b).toNat = b.toNat - 1 := by
  unfold countdown
  split
  · rename_i h; simp [h]
  · rename_i h
    have h0 : b.toNat ≠ 0 := fun e => h (BitVec.eq_of_toNat_eq (by simpa using e))
    have hl := b.isLt
    rw [BitVec.toNat_sub]
    simp
    omega

end Sys2Proof.Machine
end

