-- ==== Sys2Proof/Tests/Slice0.lean ====
section
/-! SUPPORT. The author's tests. Every expected value is taken from spec/95_test_vectors.md (the vector's name stands in
the comment) or worked out from the rule the comment names. Then, one witness for each statement that has hypotheses. -/

namespace Sys2Proof.Tests

open Sys2Proof Sys2Proof.Machine

/-! ### Helpers -/

/-- The reset state with registers set. -/
def withRegs (regs : List (Nibble × Byte)) : State := regs.foldl (fun s p => s.setReg p.1 p.2) State.reset

/-- The reset state with some pixels on. -/
def withPixels (pixels : List (Fin 64 × Fin 32)) (s : State) : State :=
  s.setDisp (pixels.foldl (fun d p => d.toggle p.1 p.2) s.disp)

/-- The reset state with bytes stored. -/
def withBytes (base : Nat) (bytes : List Byte) (s : State) : State := s.setMem (s.mem.writeBytes base bytes)

/-- A state with `n` stack entries in use. -/
def withDepth (n : Fin 17) (s : State) : State := { s with sp := n }

/-- The reset state with an opcode at its program counter. -/
def atReset (opcode : Nat) : State := State.reset.withFetchWord 16 opcode

/-- What one tick leaves, seen through `view`, with `opcode` placed at the program counter of `s`. -/
def ticked {α : Type} (opcode : Nat) (s : State) (view : State → α) : Option α :=
  match step (s.withFetchWord 16 opcode) with
  | .next t => some (view t)
  | .fault _ => none
  | .refused _ => none

/-- The pixels of the first row. -/
def row0 (s : State) : BitVec 64 := s.disp[0]

/-! ### Ill-formed terms that the checks refuse -/

/-- 0x00E0 is CLS, not SYS (R54). -/
theorem test_wf_sys_cls : (Instr.sys 0x0E0#12).wf = false := by decide
/-- 0x00EE is RET, not SYS (R54). -/
theorem test_wf_sys_ret : (Instr.sys 0x0EE#12).wf = false := by decide
/-- 0x00E1 is SYS (DV-E4). -/
theorem test_wf_sys_other : (Instr.sys 0x0E1#12).wf = true := by decide
/-- 0x6A3C is a load, so UNRECOGNIZED may not carry it (R57). -/
theorem test_wf_unrecognized_load : (Instr.unrecognized 0x6A3C#16).wf = false := by decide
/-- One defined word of each family that has UNRECOGNIZED words (DV-E11, DV-E18, DV-E20, DV-E26, DV-E36). -/
theorem test_wf_unrecognized_neighbours :
    [0x5120#16, 0x8ABE, 0x9AB0, 0xE09E, 0xF029].all (fun w => !(Instr.unrecognized w).wf) = true := by decide
/-- One UNRECOGNIZED word of each of those families (DV-E12, DV-E16, DV-E21, DV-E28, DV-E33). -/
theorem test_wf_unrecognized_words :
    [0x5121#16, 0x8AB8, 0x9AB1, 0xE09F, 0xF075].all (fun w => (Instr.unrecognized w).wf) = true := by decide

/-! ### One word of every constructor -/

/-- DV-E2. -/
theorem test_decode_cls : decodeTableWord 16 0x00E0 = some .cls := by decide
/-- DV-E3. -/
theorem test_decode_ret : decodeTableWord 16 0x00EE = some .ret := by decide
/-- DV-E4. -/
theorem test_decode_sys : decodeTableWord 16 0x00E1 = some (.sys 0x0E1) := by decide
/-- DV-E7. -/
theorem test_decode_jp : decodeTableWord 16 0x1FFF = some (.jp 0xFFF) := by decide
/-- DV-E8. -/
theorem test_decode_call : decodeTableWord 16 0x2ABC = some (.call 0xABC) := by decide
/-- DV-E9. -/
theorem test_decode_seNn : decodeTableWord 16 0x3A7F = some (.seNn 0xA 0x7F) := by decide
/-- DV-E10. -/
theorem test_decode_sneNn : decodeTableWord 16 0x4001 = some (.sneNn 0x0 0x01) := by decide
/-- DV-E11. -/
theorem test_decode_seVy : decodeTableWord 16 0x5120 = some (.seVy 0x1 0x2) := by decide
/-- S8. -/
theorem test_decode_ldNn : decodeTableWord 16 0x6A3C = some (.ldNn 0xA 0x3C) := by decide
/-- DV-E13. -/
theorem test_decode_addNn : decodeTableWord 16 0x7EFF = some (.addNn 0xE 0xFF) := by decide
/-- DV-E14. -/
theorem test_decode_ldVy : decodeTableWord 16 0x8AB0 = some (.ldVy 0xA 0xB) := by decide
/-- DV-A35. -/
theorem test_decode_orVy : decodeTableWord 16 0x8121 = some (.orVy 0x1 0x2) := by decide
/-- DV-A37. -/
theorem test_decode_andVy : decodeTableWord 16 0x8122 = some (.andVy 0x1 0x2) := by decide
/-- DV-A39. -/
theorem test_decode_xorVy : decodeTableWord 16 0x8123 = some (.xorVy 0x1 0x2) := by decide
/-- DV-A53. -/
theorem test_decode_addVy : decodeTableWord 16 0x81F4 = some (.addVy 0x1 0xF) := by decide
/-- DV-A54. -/
theorem test_decode_sub : decodeTableWord 16 0x8F15 = some (.sub 0xF 0x1) := by decide
/-- DV-A23; the field `y` is kept though the operation ignores it. -/
theorem test_decode_shr : decodeTableWord 16 0x8126 = some (.shr 0x1 0x2) := by decide
/-- DV-E15. -/
theorem test_decode_subn : decodeTableWord 16 0x8AB7 = some (.subn 0xA 0xB) := by decide
/-- DV-E18. -/
theorem test_decode_shl : decodeTableWord 16 0x8ABE = some (.shl 0xA 0xB) := by decide
/-- DV-E20. -/
theorem test_decode_sneVy : decodeTableWord 16 0x9AB0 = some (.sneVy 0xA 0xB) := by decide
/-- DV-E22. -/
theorem test_decode_ldI : decodeTableWord 16 0xA200 = some (.ldI 0x200) := by decide
/-- DV-E23. -/
theorem test_decode_jpV0 : decodeTableWord 16 0xB123 = some (.jpV0 0x123) := by decide
/-- DV-E24. -/
theorem test_decode_rnd : decodeTableWord 16 0xC30F = some (.rnd 0x3 0x0F) := by decide
/-- S9. -/
theorem test_decode_drw : decodeTableWord 16 0xD125 = some (.drw 0x1 0x2 0x5) := by decide
/-- DV-K1. -/
theorem test_decode_skp : decodeTableWord 16 0xE29E = some (.skp 0x2) := by decide
/-- DV-K3. -/
theorem test_decode_sknp : decodeTableWord 16 0xE2A1 = some (.sknp 0x2) := by decide
/-- DV-T1. -/
theorem test_decode_ldVxDt : decodeTableWord 16 0xF307 = some (.ldVxDt 0x3) := by decide
/-- DV-S10. -/
theorem test_decode_ldVxK : decodeTableWord 16 0xF30A = some (.ldVxK 0x3) := by decide
/-- DV-T3. -/
theorem test_decode_ldDtVx : decodeTableWord 16 0xF315 = some (.ldDtVx 0x3) := by decide
/-- DV-T5. -/
theorem test_decode_ldStVx : decodeTableWord 16 0xF318 = some (.ldStVx 0x3) := by decide
/-- DV-M2. -/
theorem test_decode_addIVx : decodeTableWord 16 0xF31E = some (.addIVx 0x3) := by decide
/-- DV-M4. -/
theorem test_decode_ldFVx : decodeTableWord 16 0xF529 = some (.ldFVx 0x5) := by decide
/-- DV-M10. -/
theorem test_decode_ldBVx : decodeTableWord 16 0xF433 = some (.ldBVx 0x4) := by decide
/-- DV-M21. -/
theorem test_decode_ldMemVx : decodeTableWord 16 0xF255 = some (.ldMemVx 0x2) := by decide
/-- DV-E34. -/
theorem test_decode_ldVxMem : decodeTableWord 16 0xF165 = some (.ldVxMem 0x1) := by decide
/-- DV-E35. -/
theorem test_decode_unrecognized : decodeTableWord 16 0xFFFF = some (.unrecognized 0xFFFF) := by decide
/-- The rest of DV-E's UNRECOGNIZED words. -/
theorem test_decode_more_unrecognized :
    [0x5121#16, 0x8AB8, 0x8ABD, 0x8ABF, 0x9AB1, 0xE09F, 0xE000, 0xF000, 0xF075].all
      (fun w => decode w == .unrecognized w) = true := by decide
/-- The field patterns of R52 put back together, one word per operand layout (S8, DV-E8, DV-E11, S9, DV-E34). -/
theorem test_encode :
    [encode (.ldNn 0xA 0x3C), encode (.call 0xABC), encode (.seVy 0x1 0x2), encode (.drw 0x1 0x2 0x5),
      encode (.ldVxMem 0x1)] = [0x6A3C, 0x2ABC, 0x5120, 0xD125, 0xF165] := by decide
/-- The high byte comes first (R35), and one byte alone is no instruction (R49). -/
theorem test_decodeBytes :
    decodeBytes [0x6A, 0x3C, 0x12] = .ok (.ldNn 0xA 0x3C, [0x12]) ∧ decodeBytes [0x6A] = .error .truncated :=
  ⟨rfl, rfl⟩

/-! ### One tick of each instruction -/

/-- S4, DV-D18: all pixels off, `VF` kept. -/
theorem test_cls : ticked 0x00E0 (withPixels [(0, 0), (63, 31), (10, 5)] (withRegs [(0xF, 0x55)]))
    (fun t => (t.disp.toList.all (· == 0), t.reg 0xF, t.pc)) = some (true, 0x55, 0x0202) := by decide
/-- DV-C7. -/
theorem test_ret : ticked 0x00EE { State.reset with sp := 1, stack := State.reset.stack.set 0 0x0456 }
    (fun t => (t.pc, t.sp, t.stack[0], t.fault)) = some (0x0456, 0, 0x0456, .running) := by decide
/-- DV-S8. -/
theorem test_ret_empty : ticked 0x00EE State.reset (fun t => (t.fault, t.pc, t.sp)) =
    some (.stackUnderflow, 0x0200, 0) := by decide
/-- DV-S3, DV-T10: the timers do not run. -/
theorem test_sys : ticked 0x0123 ((State.reset.setDt 9).setSt 9) (fun t => (t.fault, t.pc, t.dt, t.st)) =
    some (.unimplementedSys, 0x0200, 9, 9) := by decide
/-- DV-C3: an odd target. -/
theorem test_jp : ticked 0x1201 State.reset (·.pc) = some 0x0201 := by decide
/-- DV-C5: the sixteenth entry is usable. -/
theorem test_call : ticked 0x2ABC (withDepth 15 State.reset) (fun t => (t.stack[15], t.sp, t.pc)) =
    some (0x0202, 16, 0x0ABC) := by decide
/-- DV-S9. -/
theorem test_call_full : ticked 0x2300 (withDepth 16 State.reset) (fun t => (t.fault, t.pc, t.sp, t.stack[15])) =
    some (.stackOverflow, 0x0200, 16, 0x0000) := by decide
/-- DV-C8, DV-C9. -/
theorem test_seNn : (ticked 0x3342 (withRegs [(3, 0x42)]) (·.pc), ticked 0x3343 (withRegs [(3, 0x42)]) (·.pc)) =
    (some 0x0204, some 0x0202) := by decide
/-- DV-C10, DV-C11. -/
theorem test_sneNn : (ticked 0x4342 (withRegs [(3, 0x42)]) (·.pc), ticked 0x4343 (withRegs [(3, 0x42)]) (·.pc)) =
    (some 0x0202, some 0x0204) := by decide
/-- DV-C12, DV-C13. -/
theorem test_seVy : (ticked 0x5120 (withRegs [(1, 7), (2, 7)]) (·.pc), ticked 0x5120 (withRegs [(1, 7), (2, 8)]) (·.pc)) =
    (some 0x0204, some 0x0202) := by decide
/-- DV-C15, DV-C16. -/
theorem test_sneVy : (ticked 0x9120 (withRegs [(1, 7), (2, 8)]) (·.pc), ticked 0x9120 (withRegs [(1, 7), (2, 7)]) (·.pc)) =
    (some 0x0204, some 0x0202) := by decide
/-- DV-C20: the sum is kept whole. -/
theorem test_jpV0 : ticked 0xBFFF (withRegs [(0, 0xFF)]) (·.pc) = some 0x10FE := by decide
/-- DV-C21: register 0, not `V[5]`. -/
theorem test_jpV0_register : ticked 0xB505 (withRegs [(5, 0x05)]) (·.pc) = some 0x0505 := by decide
/-- S8. -/
theorem test_ldNn : ticked 0x6A3C State.reset (fun t => (t.reg 0xA, t.pc)) = some (0x3C, 0x0202) := by decide
/-- DV-A43: wraps, no flag. -/
theorem test_addNn : ticked 0x7120 (withRegs [(1, 0xF0), (0xF, 0xAA)]) (fun t => (t.reg 1, t.reg 0xF)) =
    some (0x10, 0xAA) := by decide
/-- DV-A41. -/
theorem test_ldVy : ticked 0x8120 (withRegs [(1, 0x12), (2, 0x34), (0xF, 0xAA)]) (fun t => (t.reg 1, t.reg 2, t.reg 0xF)) =
    some (0x34, 0x34, 0xAA) := by decide
/-- DV-A35. -/
theorem test_orVy : ticked 0x8121 (withRegs [(1, 0x0F), (2, 0xF0), (0xF, 0xAA)]) (fun t => (t.reg 1, t.reg 0xF)) =
    some (0xFF, 0xAA) := by decide
/-- DV-A37. -/
theorem test_andVy : ticked 0x8122 (withRegs [(1, 0x3C), (2, 0x0F), (0xF, 0xAA)]) (fun t => (t.reg 1, t.reg 0xF)) =
    some (0x0C, 0xAA) := by decide
/-- DV-A39. -/
theorem test_xorVy : ticked 0x8123 (withRegs [(1, 0xFF), (2, 0x0F), (0xF, 0xAA)]) (fun t => (t.reg 1, t.reg 0xF)) =
    some (0xF0, 0xAA) := by decide
/-- DV-A6: a sum of exactly 255 is no carry. -/
theorem test_addVy : ticked 0x8124 (withRegs [(1, 0x80), (2, 0x7F)]) (fun t => (t.reg 1, t.reg 0xF)) =
    some (0xFF, 0x00) := by decide
/-- DV-A53: the old `VF` is read as the operand. -/
theorem test_addVy_flag_operand : ticked 0x81F4 (withRegs [(1, 0x02), (0xF, 0xFF)]) (fun t => (t.reg 1, t.reg 0xF)) =
    some (0x01, 0x01) := by decide
/-- DV-A9: equal operands give flag 0. -/
theorem test_sub : ticked 0x8125 (withRegs [(1, 0x05), (2, 0x05)]) (fun t => (t.reg 1, t.reg 0xF)) =
    some (0x00, 0x00) := by decide
/-- DV-A11. -/
theorem test_sub_wraps : ticked 0x8125 (withRegs [(1, 0x03), (2, 0x05)]) (fun t => (t.reg 1, t.reg 0xF)) =
    some (0xFE, 0x00) := by decide
/-- DV-A19. -/
theorem test_subn : ticked 0x8127 (withRegs [(1, 0x03), (2, 0x05)]) (fun t => (t.reg 1, t.reg 0xF)) =
    some (0x02, 0x01) := by decide
/-- DV-A55: the flag overwrites the result. -/
theorem test_subn_flag_destination : ticked 0x8F17 (withRegs [(0xF, 0xFF), (1, 0x02)]) (fun t => (t.reg 1, t.reg 0xF)) =
    some (0x02, 0x00) := by decide
/-- DV-A28. -/
theorem test_shr : ticked 0x8126 (withRegs [(1, 0x55), (2, 0x00)]) (fun t => (t.reg 1, t.reg 2, t.reg 0xF)) =
    some (0x2A, 0x00, 0x01) := by decide
/-- DV-A27: `V[2]` plays no part. -/
theorem test_shr_ignores_y : ticked 0x8126 (withRegs [(1, 0x80), (2, 0xFF)]) (fun t => (t.reg 1, t.reg 2, t.reg 0xF)) =
    some (0x40, 0xFF, 0x00) := by decide
/-- DV-A34. -/
theorem test_shl : ticked 0x812E (withRegs [(1, 0xAA), (2, 0x00)]) (fun t => (t.reg 1, t.reg 0xF)) =
    some (0x54, 0x01) := by decide
/-- DV-A57. -/
theorem test_shl_flag_destination : ticked 0x8F0E (withRegs [(0xF, 0xFF), (0, 0x02)]) (fun t => (t.reg 0, t.reg 0xF)) =
    some (0x02, 0x01) := by decide
/-- DV-M1. -/
theorem test_ldI : ticked 0xAFFF State.reset (·.i) = some 0x0FFF := by decide
/-- DV-A62: whatever the byte drawn, a zero mask leaves 0; one draw is used. -/
theorem test_rnd_zero_mask : ∃ t, exec (.rnd 0x3#4 0x00#8) (withRegs [(3, 0xAB), (0xF, 0x55)]) = .next t ∧
    t.reg 0x3#4 = 0x00#8 ∧ t.reg 0xF#4 = 0x55#8 ∧ t.draws = 1 :=
  ⟨_, rfl, by simp [withRegs], by decide, rfl⟩
/-- DV-A60, DV-A63, for every byte drawn: only the bits of the mask can be set. -/
theorem test_rnd_mask : ∃ t, exec (.rnd 0x3#4 0x0F#8) State.reset = .next t ∧ t.reg 0x3#4 &&& 0xF0#8 = 0x00#8 :=
  ⟨_, rfl, by simp [BitVec.and_assoc]⟩
/-- DV-D4: six bits clamp to column 63 and leave it off. -/
theorem test_drw_clamps : ticked 0xD011 (withBytes 0x300 [0xFF] ((withRegs [(0, 61)]).setI 0x300))
    (fun t => (row0 t, t.reg 0xF)) = some (0x6000000000000000, 0x01) := by decide
/-- DV-D2: erasing exactly gives flag 0. -/
theorem test_drw_erases : ticked 0xD011 (withBytes 0x300 [0x80] (withPixels [(0, 0)] (State.reset.setI 0x300)))
    (fun t => (row0 t, t.reg 0xF)) = some (0, 0x00) := by decide
/-- DV-K1, DV-K2. -/
theorem test_skp : (ticked 0xE29E ((withRegs [(2, 0x05)]).setKeys 0x0020) (·.pc),
    ticked 0xE29E ((withRegs [(2, 0x04)]).setKeys 0x0020) (·.pc)) = (some 0x0204, some 0x0202) := by decide
/-- DV-K5: the low nibble is the index. -/
theorem test_skp_low_nibble : ticked 0xE29E ((withRegs [(2, 0x15)]).setKeys 0x0020) (·.pc) = some 0x0204 := by decide
/-- DV-K3, DV-K4. -/
theorem test_sknp : (ticked 0xE2A1 ((withRegs [(2, 0x05)]).setKeys 0x0020) (·.pc),
    ticked 0xE2A1 (withRegs [(2, 0x05)]) (·.pc)) = (some 0x0202, some 0x0204) := by decide
/-- DV-T1: the value before the decrement. -/
theorem test_ldVxDt : ticked 0xF307 (State.reset.setDt 1) (fun t => (t.reg 3, t.dt)) = some (0x01, 0) := by decide
/-- DV-S10. -/
theorem test_ldVxK : ticked 0xF30A ((State.reset.setDt 9).setKeys 0xFFFF) (fun t => (t.fault, t.pc, t.reg 3, t.dt)) =
    some (.unimplementedKeyWait, 0x0200, 0x00, 9) := by decide
/-- DV-T4: the write, then the decrement. -/
theorem test_ldDtVx : ticked 0xF315 (withRegs [(3, 0xFF)]) (·.dt) = some 254 := by decide
/-- DV-T3: written 0, stays 0. -/
theorem test_ldDtVx_zero : ticked 0xF315 (State.reset.setDt 7) (·.dt) = some 0 := by decide
/-- DV-T5: sound never becomes active. -/
theorem test_ldStVx : ticked 0xF318 (withRegs [(3, 0x01)]) (fun t => (t.st, t.soundActive)) = some (0, false) := by decide
/-- DV-T6. -/
theorem test_ldStVx_two : ticked 0xF318 (withRegs [(3, 0x02)]) (fun t => (t.st, t.soundActive)) = some (1, true) := by decide
/-- DV-M2: past 0x0FFF, no flag. -/
theorem test_addIVx : ticked 0xF31E ((withRegs [(3, 0x01), (0xF, 0xAA)]).setI 0x0FFF) (fun t => (t.i, t.reg 0xF)) =
    some (0x1000, 0xAA) := by decide
/-- DV-M3: the 16-bit wrap. -/
theorem test_addIVx_wraps : ticked 0xF31E ((withRegs [(3, 0x02)]).setI 0xFFFF) (·.i) = some 0x0001 := by decide
/-- DV-M8: only the low nibble counts. -/
theorem test_ldFVx : ticked 0xF529 (withRegs [(5, 0x1A)]) (·.i) = some 0x0032 := by decide
/-- DV-M10. -/
theorem test_ldBVx : ticked 0xF433 ((withRegs [(4, 0x9C)]).setI 0x0300)
    (fun t => (t.memRead 0x300, t.memRead 0x301, t.memRead 0x302, t.i)) = some (1, 5, 6, 0x0300) := by decide
/-- DV-M18: the third cell wraps onto the font. -/
theorem test_ldBVx_wraps : ticked 0xF033 ((withRegs [(0, 0xFF)]).setI 0x0FFE)
    (fun t => (t.memRead 0xFFE, t.memRead 0xFFF, t.memRead 0x000)) = some (2, 5, 5) := by decide
/-- DV-M19: the second cell wraps, `I` stays. -/
theorem test_ldMemVx_wraps : ticked 0xF155 ((withRegs [(0, 0xAA), (1, 0xBB)]).setI 0x0FFF)
    (fun t => (t.memRead 0xFFF, t.memRead 0x000, t.i)) = some (0xAA, 0xBB, 0x0FFF) := by decide
/-- DV-M21: `V[2]` is stored, `V[3]` is not. -/
theorem test_ldMemVx_inclusive : ticked 0xF255 ((withRegs [(0, 0x11), (1, 0x22), (2, 0x33), (3, 0x44)]).setI 0x0300)
    (fun t => (t.memRead 0x300, t.memRead 0x301, t.memRead 0x302, t.memRead 0x303)) = some (0x11, 0x22, 0x33, 0x00) := by
  decide
/-- DV-M20: the second byte is the first font byte. -/
theorem test_ldVxMem_wraps : ticked 0xF165 (withBytes 0xFFF [0x77] (State.reset.setI 0x0FFF))
    (fun t => (t.reg 0, t.reg 1, t.i)) = some (0x77, 0xF0, 0x0FFF) := by decide
/-- DV-M25: glyph 0 of the default font; `V[5]` is not loaded. -/
theorem test_ldVxMem_inclusive : ticked 0xF465 (withRegs [(5, 0x99)])
    (fun t => (t.reg 0, t.reg 1, t.reg 3, t.reg 4, t.reg 5)) = some (0xF0, 0x90, 0x90, 0xF0, 0x99) := by decide
/-- DV-S1. -/
theorem test_unrecognized : ticked 0x8128 ((State.reset.setDt 9).setSt 9) (fun t => (t.pc, t.dt, t.st, t.fault)) =
    some (0x0202, 8, 8, .running) := by decide

/-! ### The cycle, the host events and Create -/

/-- DV-S4: the reset state fetches 0x0000, which is SYS. -/
theorem test_first_tick : ∃ t, step State.reset = .next t ∧ t = { State.reset with fault := .unimplementedSys } :=
  ⟨_, rfl, by decide⟩
/-- DV-S6: a paused tick fetches nothing. -/
theorem test_paused_tick : ∃ t, step ((atReset 0x6A3C).setPaused true) = .next t ∧ t.reg 0xA = 0 ∧ t.pc = 0x0200 :=
  ⟨_, rfl, by decide, by decide⟩
/-- DV-S11: a paused tick cannot fault. -/
theorem test_paused_ret : ∃ t, step ((atReset 0x00EE).setPaused true) = .next t ∧ t.fault = .running :=
  ⟨_, rfl, by decide⟩
/-- DV-S12: the second byte is fetched from 0x000. -/
theorem test_fetch_wraps : ∃ t, step (withBytes 0xFFF [0x6A] (withBytes 0 [0x3C] (State.reset.setPc 0x0FFF))) = .next t ∧
    t.reg 0xA = 0x3C ∧ t.pc = 0x1001 :=
  ⟨_, rfl, by decide, by decide⟩
/-- DV-S5: a halted machine still takes `SetKeys`, a tick changes nothing, and `ReadFault` answers 3. -/
theorem test_halted : ∃ t, afterAll [.tick, .setKeys 0xFFFF, .tick] (State.reset.setFault .unimplementedSys) = .next t ∧
    t = { State.reset with fault := .unimplementedSys, keys := 0xFFFF } ∧ answer .readFault t = .fault 3 :=
  ⟨_, rfl, by decide, rfl⟩
/-- DV-K10: a press that no tick sees is never seen. -/
theorem test_unseen_press : ∃ t, afterAll [.setKeys 0x0002, .setKeys 0x0000, .tick]
    ((withRegs [(2, 0x01)]).withFetchWord 16 0xE29E) = .next t ∧ t.pc = 0x0202 :=
  ⟨_, rfl, by decide⟩
/-- DV-R2, DV-R5: the image, the font's first byte, and no trace of what was before. -/
theorem test_create : (let t := create [0x12, 0x34] ((withRegs [(3, 9)]).setFault .stackUnderflow)
    (t.memRead 0x200, t.memRead 0x201, t.memRead 0x202, t.memRead 0x000, t.reg 3, t.fault, t.pc)) =
    (0x12, 0x34, 0x00, 0xF0, 0x00, .running, 0x0200) := by decide
/-- DV-R4: a `LoadError`, with no image byte in memory. -/
theorem test_create_too_long (image : List Byte) (h : image.length = 3585) :
    (create image State.reset).fault = .loadError ∧ (create image State.reset).memRead 0x200 = 0x00 := by
  have e : create image State.reset = { State.reset with mem := createMemory defaultFont [], fault := .loadError } :=
    if_neg (by rw [h]; decide)
  rw [e]
  exact ⟨rfl, by decide⟩

/-! ### Witnesses: states and operands that meet the hypotheses of the statements -/

/-- `DecodeOfEncodeIsIdentity`: the two kinds with a side condition, at the edges of it, and one kind without. -/
theorem witness_wellFormed : (Instr.sys 0x000#12).wf = true ∧ (Instr.sys 0x0EF#12).wf = true ∧
    (Instr.unrecognized 0x5001#16).wf = true ∧ (Instr.unrecognized 0xFFFF#16).wf = true ∧ (Instr.drw 0xF 0xF 0xF).wf = true := by
  decide
/-- `UnrecognizedSpaceIsTheTable`, `UnrecognizedIsNoOperation`: the first and the last word of the space. -/
theorem witness_unrecognized : inUnrecognizedSpace 0x5001#16 = true ∧ decode 0x5001#16 = .unrecognized 0x5001 ∧
    inUnrecognizedSpace 0xFFFF#16 = true ∧ decode 0xFFFF#16 = .unrecognized 0xFFFF ∧ inUnrecognizedSpace 0x5000#16 = false := by
  decide
/-- `UnrecognizedIsNoOperation`, the tick. -/
theorem witness_unrecognized_tick : (atReset 0x8128).suspended = false ∧ (atReset 0x8128).fetchOpcode = 0x8128#16 := by
  decide
/-- `TickRunsTheDecodedInstruction`, third clause: a completed and a faulting instruction. -/
theorem witness_tick : (atReset 0x6A3C).fault = .running ∧ (atReset 0x6A3C).paused = false ∧
    (∃ t, exec (decode ((atReset 0x6A3C).memRead 0x200 ++ (atReset 0x6A3C).memRead 0x201)) (atReset 0x6A3C) = .next t ∧
      t.fault = .running) ∧
    ∃ t, exec (decode ((atReset 0x00EE).memRead 0x200 ++ (atReset 0x00EE).memRead 0x201)) (atReset 0x00EE) = .next t ∧
      t.fault ≠ .running :=
  ⟨rfl, rfl, ⟨_, rfl, by decide⟩, _, rfl, by decide⟩
/-- `TickRunsTheDecodedInstruction`, first two clauses, and `SuspendedMachineStaysPut`: halted, and paused. -/
theorem witness_suspended : (State.reset.setFault .loadError).fault ≠ .running ∧ (State.reset.setPaused true).paused = true := by
  decide
/-- `FaultingCycleChangesOnlyFault`, and the four faults of `FaultCausesAreExact`. -/
theorem witness_faults :
    (∃ t, step (atReset 0x00EE) = .next t ∧ t.fault = .stackUnderflow) ∧
    (∃ t, step (withDepth 16 (atReset 0x2ABC)) = .next t ∧ t.fault = .stackOverflow) ∧
    (∃ t, step (atReset 0x0FFF) = .next t ∧ t.fault = .unimplementedSys) ∧
    (∃ t, step (atReset 0xF00A) = .next t ∧ t.fault = .unimplementedKeyWait) :=
  ⟨⟨_, rfl, by decide⟩, ⟨_, rfl, by decide⟩, ⟨_, rfl, by decide⟩, _, rfl, by decide⟩
/-- `FaultCausesAreExact`: the premises, and no fault at the edges next to the two stack faults. -/
theorem witness_no_fault : (atReset 0x00EE).fault = .running ∧ (atReset 0x00EE).paused = false ∧
    (∃ t, step (withDepth 1 (atReset 0x00EE)) = .next t ∧ t.fault = .running) ∧
    (∃ t, step (withDepth 15 (atReset 0x2ABC)) = .next t ∧ t.fault = .running) :=
  ⟨rfl, rfl, ⟨_, rfl, by decide⟩, _, rfl, by decide⟩
/-- `TimersCountExecutedCycles`: a write of each timer, another instruction at 1 and at 0, a paused and a faulting tick. -/
theorem witness_timers :
    (∃ t, (atReset 0xF315).suspended = false ∧ step (atReset 0xF315) = .next t ∧ t.fault = .running ∧
      (atReset 0xF315).fetchInstr = .ldDtVx 0x3#4) ∧
    (∃ t, (atReset 0xF318).suspended = false ∧ step (atReset 0xF318) = .next t ∧ t.fault = .running ∧
      (atReset 0xF318).fetchInstr = .ldStVx 0x3#4) ∧
    (∃ t, ((atReset 0x1200).setDt 1).suspended = false ∧ step ((atReset 0x1200).setDt 1) = .next t ∧ t.fault = .running ∧
      ((atReset 0x1200).setDt 1).fetchInstr = .jp 0x200#12 ∧ t.dt = 0 ∧ t.st = 0) ∧
    (∃ t, ((atReset 0x1200).setPaused true).suspended = true ∧ step ((atReset 0x1200).setPaused true) = .next t) ∧
    (∃ t, step ((atReset 0x0123).setDt 5) = .next t ∧ t.fault ≠ .running) :=
  ⟨⟨_, by decide, rfl, by decide, by decide⟩, ⟨_, by decide, rfl, by decide, by decide⟩,
    ⟨_, by decide, rfl, by decide, by decide, by decide, by decide⟩, ⟨_, by decide, rfl⟩, _, rfl, by decide⟩
/-- `TimerTransfers`, the three ticks. -/
theorem witness_timer_ticks : (atReset 0xFF07).suspended = false ∧ (atReset 0xFF07).fetchInstr = .ldVxDt 0xF#4 ∧
    (atReset 0xF015).suspended = false ∧ (atReset 0xF015).fetchInstr = .ldDtVx 0x0#4 ∧
    (atReset 0xFF18).suspended = false ∧ (atReset 0xFF18).fetchInstr = .ldStVx 0xF#4 := by decide
/-- `TimerReachesZeroAfterItsCount` and S10's spin: no executed cycle, and one, from `ST = 1`. -/
theorem witness_executes_for :
    ExecutesFor (fun u => ∀ x, u.fetchInstr ≠ .ldStVx x) 0 ((atReset 0x1200).setSt 1) ((atReset 0x1200).setSt 1) ∧
    (∃ t, ExecutesFor (fun u => (∀ x, u.fetchInstr ≠ .ldStVx x)) 1 ((atReset 0x1200).setSt 1) t ∧ t.st = 0) ∧
    ∃ t, ExecutesFor (fun u => (∀ x, u.fetchInstr ≠ .ldDtVx x)) 1 ((atReset 0x1200).setDt 255) t ∧ t.dt = 254 :=
  ⟨rfl, ⟨_, ⟨_, by decide, ⟨by decide, rfl, by decide⟩, rfl⟩, by decide⟩,
    _, ⟨_, by decide, ⟨by decide, rfl, by decide⟩, rfl⟩, by decide⟩
/-- `TickKeepsMemoryCanonical`, `DecimalDigitsAreStored`, `BulkStoreStoresUpToX`: memory with entries, and a store that
wraps onto the font and onto zero cells. -/
theorem witness_canonical : MemCanonical ((atReset 0xF033).setI 0x0FFE) ∧ ((atReset 0xF033).setI 0x0FFE).mem ≠ [] ∧
    ∃ t, step ((atReset 0xF033).setI 0x0FFE) = .next t := by
  refine ⟨?_, by decide, _, rfl⟩
  unfold MemCanonical
  decide
/-- The same three statements: an address outside the cells stored to, next to them, at both ends. -/
theorem witness_outside : let s := State.reset.setI 0xFFFE
    (∀ k, k < 3 → cellOf 0xFFD ≠ cellOf (s.indexed k)) ∧ (∀ k, k < 3 → cellOf 0x001 ≠ cellOf (s.indexed k)) ∧
    (∀ k, k ≤ (0xF#4).toNat → cellOf 0xFFD ≠ cellOf (s.indexed k)) ∧
    (∀ k, k ≤ (0xF#4).toNat → cellOf 0x00E ≠ cellOf (s.indexed k)) ∧ (0xF#4 ≤ 0xF#4) ∧ (0x0#4 ≤ 0x0#4) := by decide
/-- `BulkLoadLoadsUpToX`: the last register loaded and the first one not. -/
theorem witness_bulk_load : (0x0#4 ≤ 0x0#4) ∧ (0x0#4 < 0x1#4) ∧ (0xF#4 ≤ 0xF#4) ∧ (0xE#4 < 0xF#4) := by decide
/-- `TickKeepsFaultExplained`, `InvariantsHoldAtReset`: a running state that faults, and a halted one. -/
theorem witness_fault_explained : FaultExplained (atReset 0x00EE) ∧ FaultExplained ((atReset 0x00EE).setFault .stackUnderflow) ∧
    FaultExplained (State.reset.setFault .loadError) ∧ ∃ t, step (atReset 0x00EE) = .next t :=
  ⟨trivial, ⟨by decide, by decide⟩, ⟨by decide, by decide⟩, _, rfl⟩
/-- `HostEventsKeepInvariants`: a run with every event. -/
theorem witness_host_events : MemCanonical (atReset 0x1200) ∧ FaultExplained (atReset 0x1200) ∧
    ∃ t, afterAll [.tick, .setKeys 0x0001, .setPause true, .readDisplay, .readSound, .readFault, .create [0x12, 0x00]]
      (atReset 0x1200) = .next t := by
  refine ⟨?_, trivial, _, rfl⟩
  unfold MemCanonical
  decide
/-- `EqualReadsAreEqualMemories`: a byte written and taken back, beside the empty memory. -/
theorem witness_equal_reads : Memory.wf (Memory.write (Memory.write [] 0x300 0x05) 0x300 0x00) = true ∧ Memory.wf [] = true ∧
    ∀ a, a < 4096 → Memory.read (Memory.write (Memory.write [] 0x300 0x05) 0x300 0x00) a = Memory.read [] a :=
  ⟨by decide, by decide, fun _ _ => rfl⟩
/-- `InstructionsWriteOnlyTheirTargets`, `ProgramCounterMovesByTheTable`, `FlagRegisterHasSixWriters`: a flag writer that
changes `VF`, and a load that names it. -/
theorem witness_exec :
    (∃ t, exec (.addVy 0x1#4 0xF#4) (withRegs [(1, 0x02), (0xF, 0xFF)]) = .next t ∧
      t.reg 0xF#4 ≠ (withRegs [(1, 0x02), (0xF, 0xFF)]).reg 0xF#4) ∧
    ∃ t, exec (.ldNn 0xF#4 0x77#8) State.reset = .next t ∧ t.reg 0xF#4 ≠ State.reset.reg 0xF#4 :=
  ⟨⟨_, rfl, by decide⟩, _, rfl, by decide⟩
/-- `EventsChangeOnlyWhatTheyOwn`: each of the four parts changed by an event that owns it. -/
theorem witness_events :
    (∃ t, after .tick (withPixels [(63, 31)] (atReset 0x00E0)) = .next t ∧ t.disp ≠ (withPixels [(63, 31)] (atReset 0x00E0)).disp) ∧
    (∃ t, after .tick ((withRegs [(0, 7)]).setI 0x300 |>.withFetchWord 16 0xF055) = .next t ∧
      t.mem ≠ ((withRegs [(0, 7)]).setI 0x300 |>.withFetchWord 16 0xF055).mem) ∧
    (∃ t, after (.setKeys 0x8000) State.reset = .next t ∧ t.keys ≠ State.reset.keys) ∧
    (∃ t, after (.setPause true) State.reset = .next t ∧ t.paused ≠ State.reset.paused) ∧
    ∃ t, after (.create [0x12]) ((State.reset.setKeys 1).setPaused true) = .next t ∧
      t.mem ≠ State.reset.mem ∧ t.keys ≠ 1 ∧ t.paused ≠ true :=
  ⟨⟨_, rfl, by decide⟩, ⟨_, rfl, by decide⟩, ⟨_, rfl, by decide⟩, ⟨_, rfl, by decide⟩,
    _, rfl, by decide, by decide, by decide⟩
/-- `OnlyCreateLeavesTheHaltedState`: every event but `Create` on a halted machine. -/
theorem witness_halted : (State.reset.setFault .stackOverflow).fault ≠ .running ∧
    (∀ image, HostEvent.create image ∉ [HostEvent.tick, .setKeys 0x0001, .setPause true, .readDisplay, .readSound, .readFault]) ∧
    ∃ t, afterAll [.tick, .setKeys 0x0001, .setPause true, .readDisplay, .readSound, .readFault]
      (State.reset.setFault .stackOverflow) = .next t :=
  ⟨by decide, by simp, _, rfl⟩
/-- `HighAddressBitsAreUnobservable`: two states that differ in the high bits of all three. -/
theorem witness_high_bits : let t : State :=
      { atReset 0xF065 with pc := 0xF200, i := 0x1000, stack := State.reset.stack.set 15 0x3000 }
    SameBelow4096 (atReset 0xF065) t ∧ t ≠ atReset 0xF065 ∧
    (∃ s', step (atReset 0xF065) = .next s') ∧ ∃ t', step t = .next t' :=
  ⟨⟨rfl, by decide, by decide, by decide⟩, by decide, ⟨_, rfl⟩, _, rfl⟩
/-- `RetPopsIntoPc`: the empty stack, one entry, and sixteen. -/
theorem witness_ret : State.reset.sp.val = 0 ∧ (withDepth 1 State.reset).sp.val = (0 : Fin 16).val + 1 ∧
    (withDepth 16 State.reset).sp.val = (15 : Fin 16).val + 1 := by decide
/-- `CallPushesReturnAddress`, `CallThenReturnComesBack`: the full stack, fifteen entries, and none; and the entries that
a push at either end leaves. -/
theorem witness_call : (withDepth 16 State.reset).sp.val = 16 ∧ (withDepth 15 State.reset).sp.val = (15 : Fin 16).val ∧
    (withDepth 15 State.reset).sp.val < 16 ∧ State.reset.sp.val = (0 : Fin 16).val ∧ State.reset.sp.val < 16 ∧
    (14 : Fin 16) ≠ 15 ∧ (1 : Fin 16) ≠ 0 ∧ (14 : Fin 16).val < (withDepth 15 State.reset).sp.val := by decide
/-- `SysFaults`: the smallest operand, the greatest, and the neighbours of the two excluded ones; and the tick. -/
theorem witness_sys : (0x000#12 ≠ 0x0E0#12 ∧ 0x000#12 ≠ 0x0EE#12) ∧ (0xFFF#12 ≠ 0x0E0#12 ∧ 0xFFF#12 ≠ 0x0EE#12) ∧
    (0x0E1#12 ≠ 0x0E0#12 ∧ 0x0E1#12 ≠ 0x0EE#12) ∧ State.reset.suspended = false ∧ State.reset.fetchInstr = .sys 0x000#12 := by
  decide
/-- `KeyWaitFaults`, the tick. -/
theorem witness_key_wait : (atReset 0xFF0A).suspended = false ∧ (atReset 0xFF0A).fetchInstr = .ldVxK 0xF#4 := by decide
/-- `SelfJumpSpinsSafely`: DV-C2. -/
theorem witness_spin : (atReset 0x1200).fault = .running ∧ (atReset 0x1200).paused = false ∧
    (atReset 0x1200).fetchInstr = .jp 0x200#12 ∧ (atReset 0x1200).pc = (0x200#12).setWidth 16 := by decide
/-- The flag writers: a result register that the flag does not overwrite (the clause on `V[x]`), next to the one it does. -/
theorem witness_result_register : (0xE#4 ≠ 0xF#4) ∧ (0x0#4 ≠ 0xF#4) := by decide
/-- `StoredRegistersComeBack`: a range that wraps, stored and loaded back at once. -/
theorem witness_come_back : let s := (withRegs [(0, 0xAA), (1, 0xBB), (15, 0xCC)]).setI 0xFFF
    MemCanonical s ∧ ∃ t, exec (.ldMemVx 0xF#4) s = .next t ∧ t.i = s.i ∧
      (∀ k, k ≤ (0xF#4).toNat → t.memRead (t.indexed k) = t.memRead (t.indexed k)) ∧ ∃ w, exec (.ldVxMem 0xF#4) t = .next w := by
  refine ⟨?_, _, rfl, rfl, fun _ _ => rfl, _, rfl⟩
  unfold MemCanonical
  decide
/-- `StoreIsSeenByTheNextFetch`, LD [I],Vx: the first and the last register stored at the next instruction's first byte
(the only one stored, and the last of sixteen), and at its second byte across the top of memory. -/
theorem witness_next_fetch :
    (let s := (atReset 0xF055).setI 0x202;
      MemCanonical s ∧ (∃ t, exec (.ldMemVx 0x0#4) s = .next t) ∧ (0x0#4 ≤ 0x0#4) ∧
        cellOf (s.indexed (0x0#4).toNat) = cellOf (s.pc + 2).toNat) ∧
    (let s := (atReset 0xFF55).setI 0x1F3;
      MemCanonical s ∧ (∃ t, exec (.ldMemVx 0xF#4) s = .next t) ∧ (0xF#4 ≤ 0xF#4) ∧
        cellOf (s.indexed (0xF#4).toNat) = cellOf (s.pc + 2).toNat) ∧
    (let s := (State.reset.setPc 0xFFFD).setI 0x0FFF;
      MemCanonical s ∧ (∃ t, exec (.ldMemVx 0x1#4) s = .next t) ∧ (0x1#4 ≤ 0x1#4) ∧
        cellOf (s.indexed (0x1#4).toNat) = cellOf ((s.pc + 2).toNat + 1)) := by
  refine ⟨⟨?_, ⟨_, rfl⟩, ?_⟩, ⟨?_, ⟨_, rfl⟩, ?_⟩, ?_, ⟨_, rfl⟩, ?_⟩
  all_goals first | decide | (unfold MemCanonical; decide)
/-- `StoreIsSeenByTheNextFetch`, LD B,Vx: the hundreds at the second byte, the ones at the first. -/
theorem witness_next_fetch_digits :
    (let s := (atReset 0xF033).setI 0x203;
      MemCanonical s ∧ (∃ t, exec (.ldBVx 0x0#4) s = .next t) ∧ cellOf (s.indexed 0) = cellOf ((s.pc + 2).toNat + 1)) ∧
    (let s := (atReset 0xF033).setI 0x200;
      MemCanonical s ∧ (∃ t, exec (.ldBVx 0x0#4) s = .next t) ∧ cellOf (s.indexed 2) = cellOf (s.pc + 2).toNat) := by
  refine ⟨⟨?_, ⟨_, rfl⟩, ?_⟩, ?_, ⟨_, rfl⟩, ?_⟩
  all_goals first | decide | (unfold MemCanonical; decide)
/-- A state with one sprite row at `I` and the start column in `V[0]`. -/
def drawState (x0 : Byte) (row : Byte) : State := withBytes 0x300 [row] ((withRegs [(0, x0)]).setI 0x300)
/-- `DrawIsXorWithClampedHits`, flag 1: a pixel hit six times (DV-D4), and one hit once while off (DV-D1). -/
theorem witness_draw_hits : hits (drawState 61 0xFF) 61 0 1 63 0 = 6 ∧ 2 ≤ hits (drawState 61 0xFF) 61 0 1 63 0 ∧
    hits (drawState 0 0x80) 0 0 1 0 0 = 1 ∧ (drawState 0 0x80).disp.pixel 0 0 = false := by decide
/-- `DrawIsXorWithClampedHits`, flag 0: no sprite row at all (DV-D8). -/
theorem witness_draw_misses : ∀ (px : Fin 64) (py : Fin 32), hits (drawState 0 0x80) 0 0 0 px.val py.val = 0 :=
  fun _ _ => rfl
/-- `DrawIsXorWithClampedHits`, flag 0: the one pixel hit is hit once, while on (DV-D2). -/
theorem witness_draw_erases : let s := withPixels [(0, 0)] (drawState 0 0x80)
    ∀ (px : Fin 64) (py : Fin 32), hits s 0 0 1 px.val py.val = 0 ∨ (hits s 0 0 1 px.val py.val = 1 ∧ s.disp.pixel px py = true) := by
  decide +kernel
/-- `UnclampedDrawIsPlainXor`: the last start column and row at which nothing is clamped (DV-D11, DV-D13), and a pixel
that is hit while off. -/
theorem witness_unclamped : let s := withRegs [(0, 56), (1, 31)]
    (s.reg 0x0#4).toNat ≤ 56 ∧ (s.reg 0x1#4).toNat + (0x1#4).toNat ≤ 32 ∧ (∃ t, exec (.drw 0x0#4 0x1#4 0x1#4) s = .next t) ∧
    spriteBit (s.spriteRow 0) 0 = true ∧ s.disp.pixel (clampX (56 + 0)) (clampY (31 + 0)) = false :=
  ⟨by decide, by decide, ⟨_, rfl⟩, by decide, by decide⟩
/-- `DrawingTwiceRestoresTheDisplay`: a clamped sprite, coordinates apart from `VF` (DV-D19). -/
theorem witness_draw_twice : ∃ t u, exec (.drw 0x0#4 0x1#4 0x1#4) (drawState 61 0xFF) = .next t ∧
    t.reg 0x0#4 = (drawState 61 0xFF).reg 0x0#4 ∧ t.reg 0x1#4 = (drawState 61 0xFF).reg 0x1#4 ∧
    exec (.drw 0x0#4 0x1#4 0x1#4) t = .next u :=
  ⟨_, _, rfl, by decide, by decide, rfl⟩
/-- `CreateLoadsTheImage`, `OversizedImageIsALoadError`: the empty image, the longest, and one byte more (S5). -/
theorem witness_images : ([] : List Byte).length ≤ 3584 ∧ (List.replicate 3584 (0xEE : Byte)).length ≤ 3584 ∧
    3584 < (List.replicate 3585 (0xEE : Byte)).length := by
  rw [List.length_replicate, List.length_replicate]
  decide
/-- `ResetValues`, `CreateLoadsTheImage`: the bounds of the address ranges meet, for no image byte and for all of them. -/
theorem witness_ranges : (0 < 80 ∧ 79 < 80) ∧ (80 ≤ 80 ∧ 80 < 4096) ∧ (80 ≤ 0x1FF ∧ 0x1FF < 0x200) ∧
    (0 < (List.replicate 3584 (0xEE : Byte)).length ∧ 3583 < (List.replicate 3584 (0xEE : Byte)).length) ∧
    (0x200 + ([] : List Byte).length ≤ 0x200 ∧ 0x200 + ([] : List Byte).length ≤ 0xFFF ∧ 0xFFF < 4096) := by
  rw [List.length_replicate]
  decide

end Sys2Proof.Tests
end

section
/-! PROOFS. What an instruction can do to `FAULT` and `MEM`, and the two invariants along every run of host events
(00_scope.md R7, 60_exceptions.md R137, R152, 70_reset_and_hazards.md R154, R155). -/

namespace Sys2Proof.Machine

open Sys2Proof

/-! ### What an instruction does to `FAULT` -/

/-- The fault an instruction raises in a state, if any (R134 to R139): `Create` alone raises `loadError`. -/
def faultRaised (i : Instr) (s : State) : Option FaultCode :=
  match i with
  | .ret => if s.sp.val = 0 then some .stackUnderflow else none
  | .call _ => if s.sp.val = 16 then some .stackOverflow else none
  | .sys _ => some .unimplementedSys
  | .ldVxK _ => some .unimplementedKeyWait
  | _ => none

/-- An instruction that raises a fault is that fault's entry and nothing else (R137). -/
theorem exec_of_faultRaised {i : Instr} {s : State} {c : FaultCode} (h : faultRaised i s = some c) :
    exec i s = raise c s := by
  cases i with
  | ret =>
    obtain ⟨hsp, rfl⟩ : s.sp.val = 0 ∧ FaultCode.stackUnderflow = c := by simpa [faultRaised] using h
    simp [exec, execRet, State.pop_empty s hsp]
  | call nnn =>
    obtain ⟨hsp, rfl⟩ : s.sp.val = 16 ∧ FaultCode.stackOverflow = c := by simpa [faultRaised] using h
    simp [exec, execCall, State.push_full s _ hsp]
  | sys nnn => cases h; rfl
  | ldVxK x => cases h; rfl
  | _ => cases h

/-- An instruction that raises no fault leaves `FAULT` alone. -/
theorem exec_fault_of_not_raised {i : Instr} {s t : State} (hn : faultRaised i s = none)
    (h : exec i s = .next t) : t.fault = s.fault := by
  cases i with
  | ret =>
    obtain ⟨hsp, -⟩ | ⟨k, -, hpop⟩ := State.pop_cases s
    · simp [faultRaised, hsp] at hn
    · simp only [exec, execRet, hpop] at h
      cases h; rfl
  | call nnn =>
    obtain ⟨hsp, -⟩ | ⟨hsp, hpush⟩ := State.push_cases s (s.pc + 2)
    · simp [faultRaised, hsp] at hn
    · simp only [exec, execCall, hpush] at h
      cases h; rfl
  | sys nnn => cases hn
  | ldVxK x => cases hn
  | ldMemVx x => cases h; rw [State.storeRegs_eq]; rfl
  | ldVxMem x => cases h; rw [State.loadRegs_eq]; rfl
  | _ => cases h; rfl

/-! ### What an instruction does to `MEM` -/

/-- Every instruction but the two that store leaves `MEM` as it is (R29). -/
theorem exec_mem_cases {i : Instr} {s t : State} (h : exec i s = .next t) :
    t.mem = s.mem ∨ (∃ x, i = .ldBVx x) ∨ (∃ x, i = .ldMemVx x) := by
  cases i with
  | ldBVx x => exact .inr (.inl ⟨x, rfl⟩)
  | ldMemVx x => exact .inr (.inr ⟨x, rfl⟩)
  | ret =>
    obtain ⟨-, hpop⟩ | ⟨k, -, hpop⟩ := State.pop_cases s
    · simp only [exec, execRet, hpop] at h
      cases h; exact .inl rfl
    · simp only [exec, execRet, hpop] at h
      cases h; exact .inl rfl
  | call nnn =>
    obtain ⟨-, hpush⟩ | ⟨hsp, hpush⟩ := State.push_cases s (s.pc + 2)
    · simp only [exec, execCall, hpush] at h
      cases h; exact .inl rfl
    · simp only [exec, execCall, hpush] at h
      cases h; exact .inl rfl
  | ldVxMem x => cases h; left; rw [State.loadRegs_eq]; rfl
  | _ => cases h; exact .inl rfl

/-- Every instruction keeps the canonical form of memory. -/
theorem exec_keeps_memCanonical {i : Instr} {s t : State} (hs : MemCanonical s) (h : exec i s = .next t) :
    MemCanonical t := by
  obtain hm | ⟨x, rfl⟩ | ⟨x, rfl⟩ := exec_mem_cases h
  · unfold MemCanonical
    rwa [hm]
  · cases h
    exact State.wf_memWrite _ _ _ (State.wf_memWrite _ _ _ (State.wf_memWrite _ _ _ hs))
  · cases h
    exact State.wf_storeRegs s _ hs

/-! ### The invariants along a tick -/

@[simp] theorem State.endCycle_mem (s : State) : s.endCycle.mem = s.mem := by
  obtain ⟨d, t, h⟩ := State.endCycle_eq s
  rw [h]; rfl

@[simp] theorem State.endCycle_fault (s : State) : s.endCycle.fault = s.fault := by
  obtain ⟨d, t, h⟩ := State.endCycle_eq s
  rw [h]; rfl

/-- Every tick keeps the canonical form of memory. -/
theorem step_keeps_memCanonical {s t : State} (hs : MemCanonical s) (h : step s = .next t) : MemCanonical t := by
  obtain ⟨-, rfl⟩ | ⟨-, u, hu, rfl⟩ := step_cases s t h
  · exact hs
  · simpa [MemCanonical] using exec_keeps_memCanonical hs hu

/-- A running state has no fault to explain. -/
theorem faultExplained_of_running {s : State} (h : s.fault = .running) : FaultExplained s := by
  simp [FaultExplained, h]

/-- A fault that the instruction at `PC` raises is explained by the state its entry leaves, since the entry moves
neither `PC` nor `MEM` nor `SP` (R137). -/
theorem faultExplained_setFault {s : State} {c : FaultCode} (h : faultRaised s.fetchInstr s = some c) :
    FaultExplained (s.setFault c) := by
  have hf : (s.setFault c).fetchInstr = s.fetchInstr := State.fetchInstr_congr s _ rfl rfl
  cases hi : s.fetchInstr with
  | ret =>
    obtain ⟨hsp, rfl⟩ : s.sp.val = 0 ∧ FaultCode.stackUnderflow = c := by simpa [faultRaised, hi] using h
    exact ⟨hf.trans hi, hsp⟩
  | call nnn =>
    obtain ⟨hsp, rfl⟩ : s.sp.val = 16 ∧ FaultCode.stackOverflow = c := by simpa [faultRaised, hi] using h
    exact ⟨⟨nnn, hf.trans hi⟩, hsp⟩
  | sys nnn =>
    rw [hi] at h; cases h
    exact ⟨nnn, hf.trans hi⟩
  | ldVxK x =>
    rw [hi] at h; cases h
    exact ⟨x, hf.trans hi⟩
  | _ => rw [hi] at h; cases h

/-- No instruction raises the code that says that no fault is recorded. -/
theorem faultRaised_ne_running (i : Instr) (s : State) : faultRaised i s ≠ some .running := by
  cases i <;> simp [faultRaised]

/-- Every tick keeps a recorded fault explained: a tick that begins halted does nothing, and any other records a fault
only by the entry of the instruction at `PC`. -/
theorem step_keeps_faultExplained {s t : State} (hs : FaultExplained s) (h : step s = .next t) :
    FaultExplained t := by
  obtain ⟨-, rfl⟩ | ⟨hawake, u, hu, rfl⟩ := step_cases s t h
  · exact hs
  · obtain ⟨hrun, -⟩ := (State.suspended_eq_false s).mp hawake
    cases hc : faultRaised s.fetchInstr s with
    | none =>
      have hfault : u.fault = s.fault := exec_fault_of_not_raised hc hu
      exact faultExplained_of_running (by simp [hfault, hrun])
    | some c =>
      rw [exec_of_faultRaised hc] at hu
      cases hu
      have hne : (s.setFault c).fault ≠ .running := fun e => faultRaised_ne_running _ s (hc.trans (congrArg some e))
      rw [State.endCycle_faulted _ hne]
      exact faultExplained_setFault hc

/-! ### The invariants along `Create` and the other host events -/

/-- The memory of `Create` is canonical for every `FONT` and every image that fits (R154). -/
theorem wf_createMemory (font : Vector Byte 80) (image : List Byte) (h : image.length ≤ Config.maxProgLen) :
    (createMemory font image).wf = true := by
  have hfont : (Memory.writeBytes [] 0 font.toList).wf = true :=
    Memory.wf_writeBytes _ _ _ Memory.wf_nil (by simp)
  exact Memory.wf_writeBytes _ _ _ hfont (by simp only [Config.maxProgLen, Config.progBase, Config.memSize] at *; omega)

/-- `Create` establishes both invariants, whatever the state before it, the `FONT` and the image (R154, R155). -/
theorem createWith_invariants (font : Vector Byte 80) (image : List Byte) (s : State) :
    MemCanonical (createWith font image s) ∧ FaultExplained (createWith font image s) := by
  unfold createWith
  split
  next hfits => exact ⟨wf_createMemory font image hfits, faultExplained_of_running rfl⟩
  next => exact ⟨wf_createMemory font [] (Nat.zero_le _), rfl, rfl⟩

/-- Every host event keeps both invariants; `SetKeys` and `SetPause` write a part that neither speaks of. -/
theorem after_keeps_invariants (e : HostEvent) (s t : State) (hs : MemCanonical s ∧ FaultExplained s)
    (h : after e s = .next t) : MemCanonical t ∧ FaultExplained t := by
  cases e with
  | create image => cases h; exact createWith_invariants defaultFont image s
  | tick => exact ⟨step_keeps_memCanonical hs.1 h, step_keeps_faultExplained hs.2 h⟩
  | setKeys k => cases h; exact hs
  | setPause b => cases h; exact hs
  | readDisplay => cases h; exact hs
  | readSound => cases h; exact hs
  | readFault => cases h; exact hs

/-- What every event keeps, every run of events keeps. -/
theorem afterAll_keeps {P : State → Prop} (hP : ∀ e s t, P s → after e s = .next t → P t)
    (es : List HostEvent) {s t : State} (hs : P s) (h : afterAll es s = .next t) : P t := by
  induction es generalizing s with
  | nil => cases h; exact hs
  | cons e rest ih =>
    unfold afterAll at h
    split at h
    next u hu => exact ih (hP e s u hs hu) h
    next => cases h
    next => cases h

/-- Settles O14: each of the seven events keeps both invariants, so every run of them does. -/
theorem hostEventsKeepInvariants : Obligations.HostEventsKeepInvariants :=
  fun es _ _ hmem hfault h => afterAll_keeps after_keeps_invariants es ⟨hmem, hfault⟩ h

end Sys2Proof.Machine
end

section
/-! PROOFS. The state as a whole (10_state.md): its reset values, what two memories that read the same are, which parts an
instruction writes and how it moves `PC`, what a halted machine keeps, and the address bits that nothing observes. -/

namespace Sys2Proof.Machine

open Sys2Proof

/-! ### The reset state, R32 -/

/-- Settles O15: reset lists no cell and records no fault. -/
theorem invariantsHoldAtReset : Obligations.InvariantsHoldAtReset :=
  ⟨Memory.wf_nil, faultExplained_of_running rfl⟩

/-- After reset an address below 4096 reads as an unlisted one. -/
theorem State.reset_memRead {a : Nat} (ha : a < Config.memSize) : State.reset.memRead a = Memory.unlisted a := by
  simp [State.memRead, State.reset, Memory.read, cellOf, Nat.mod_eq_of_lt ha]

/-- Outside the font an unlisted address reads as zero (R32, R39). -/
theorem Memory.unlisted_above_font {a : Nat} (ha : 80 ≤ a) : Memory.unlisted a = 0 :=
  List.getD_eq_default _ _ ha

@[simp] theorem State.reset_reg (r : Nibble) : State.reset.reg r = 0 := by
  simp [State.reg, State.reset]

theorem State.reset_stack (j : Fin 16) : State.reset.stack[j] = 0 := by
  simp [State.reset]

/-- Settles O54: the cells from the form of memory, the vectors entry by entry, and the rest as `State.reset` writes it. -/
theorem resetValues : Obligations.ResetValues := by
  unfold Obligations.ResetValues
  refine ⟨fun a ha => ?_, fun a hlo hhi => ?_, State.reset_reg, rfl, rfl, rfl, State.reset_stack, rfl, rfl,
    Display.pixel_clear, rfl, rfl, rfl⟩
  · exact State.reset_memRead (by simp only [Config.memSize]; omega)
  · exact (State.reset_memRead hhi).trans (Memory.unlisted_above_font hlo)

/-! ### Canonical memories that read the same -/

theorem Memory.wfFrom_cons {lo a : Nat} {b : Byte} {m : Memory} :
    Memory.wfFrom lo ((a, b) :: m) = true ↔
      lo ≤ a ∧ a < Config.memSize ∧ b ≠ Memory.unlisted a ∧ m.wfFrom (a + 1) = true := by
  simp [Memory.wfFrom, and_assoc]

/-- The first listed address of a canonical memory tells it from every one that begins above that address. -/
theorem Memory.read_head_ne {lo lo' a : Nat} {b : Byte} {m m' : Memory} (h : Memory.wfFrom lo ((a, b) :: m) = true)
    (h' : m'.wfFrom lo' = true) (hlt : a < lo') : Memory.read ((a, b) :: m) a ≠ m'.read a := by
  obtain ⟨-, -, hb, -⟩ := Memory.wfFrom_cons.mp h
  rw [Memory.read_below m' h' hlt]
  simpa [Memory.read] using hb

/-- Two memories that begin at the same address and read the same agree at it and, entry by entry, after it. -/
theorem Memory.read_tail_eq {a : Nat} {b b' : Byte} {r r' : Memory} (hr : r.wfFrom (a + 1) = true)
    (hr' : r'.wfFrom (a + 1) = true) (ha : a < Config.memSize)
    (hread : ∀ k, k < Config.memSize → Memory.read ((a, b) :: r) k = Memory.read ((a, b') :: r') k) :
    b = b' ∧ ∀ k, k < Config.memSize → Memory.read r k = Memory.read r' k := by
  refine ⟨by simpa [Memory.read] using hread a ha, fun k hk => ?_⟩
  by_cases hka : a = k
  · subst hka
    rw [Memory.read_below r hr (Nat.lt_succ_self a), Memory.read_below r' hr' (Nat.lt_succ_self a)]
  · simpa [Memory.read, hka] using hread k hk

/-- Canonical memories that read the same below 4096 are equal, wherever each of them begins. -/
theorem Memory.eq_of_read_eq {lo lo' : Nat} (m m' : Memory) (h : m.wfFrom lo = true) (h' : m'.wfFrom lo' = true)
    (hread : ∀ a, a < Config.memSize → m.read a = m'.read a) : m = m' := by
  induction m generalizing lo lo' m' with
  | nil =>
    cases m' with
    | nil => rfl
    | cons e' r' =>
      obtain ⟨-, ha', -, -⟩ := Memory.wfFrom_cons.mp h'
      exact absurd (hread e'.1 ha').symm (Memory.read_head_ne (m' := []) (lo' := e'.1 + 1) h' rfl (Nat.lt_succ_self _))
  | cons e r ih =>
    obtain ⟨a, b⟩ := e
    obtain ⟨-, ha, hb, hr⟩ := Memory.wfFrom_cons.mp h
    cases m' with
    | nil => exact absurd (hread a ha) (Memory.read_head_ne (m' := []) (lo' := a + 1) h rfl (Nat.lt_succ_self _))
    | cons e' r' =>
      obtain ⟨a', b'⟩ := e'
      obtain ⟨-, ha', hb', hr'⟩ := Memory.wfFrom_cons.mp h'
      obtain hlt | rfl | hgt := Nat.lt_trichotomy a a'
      · have hbelow : Memory.wfFrom a' ((a', b') :: r') = true := Memory.wfFrom_cons.mpr ⟨Nat.le_refl a', ha', hb', hr'⟩
        exact absurd (hread a ha) (Memory.read_head_ne h hbelow hlt)
      · obtain ⟨rfl, htail⟩ := Memory.read_tail_eq hr hr' ha hread
        rw [ih r' hr hr' htail]
      · have hbelow : Memory.wfFrom a ((a, b) :: r) = true := Memory.wfFrom_cons.mpr ⟨Nat.le_refl a, ha, hb, hr⟩
        exact absurd (hread a' ha').symm (Memory.read_head_ne h' hbelow hgt)

/-- Settles O16. -/
theorem equalReadsAreEqualMemories : Obligations.EqualReadsAreEqualMemories :=
  fun m m' h h' hread => Memory.eq_of_read_eq m m' h h' hread

/-! ### Frames: one rule per operation

Each rule extends a frame by one operation, so an instruction's frame follows the definition of its meaning. -/

section Frames

variable {regs : List Nibble} {parts : List Part} {s t : State}

theorem Frame.refl : Frame regs parts s s := by simp [Frame]

theorem Frame.setPc (h : Frame regs parts s t) (w : Word) : Frame regs parts s (t.setPc w) := h

theorem Frame.advance (h : Frame regs parts s t) : Frame regs parts s t.advance := h

theorem Frame.skipIf (h : Frame regs parts s t) (c : Bool) : Frame regs parts s (t.skipIf c) := h

theorem Frame.setReg (h : Frame regs parts s t) {x : Nibble} (b : Byte) (hx : x ∈ regs) :
    Frame regs parts s (t.setReg x b) := by
  obtain ⟨hregs, hparts⟩ := h
  refine ⟨fun r hr => ?_, hparts⟩
  have hne : r ≠ x := fun e => hr (e ▸ hx)
  rw [State.setReg_reg, if_neg hne, hregs r hr]

theorem Frame.setResultFlag (h : Frame regs parts s t) {x : Nibble} (b : Byte) (c : Bool) (hx : x ∈ regs)
    (hf : flagReg ∈ regs) : Frame regs parts s (t.setResultFlag x b c) :=
  (h.setReg b hx).setReg _ hf

theorem Frame.loadRegs (h : Frame regs parts s t) (n : Nat) (hn : ∀ k, k < n → BitVec.ofNat 4 k ∈ regs) :
    Frame regs parts s (t.loadRegs n) := by
  induction n with
  | zero => exact h
  | succ n ih =>
    rw [State.loadRegs_succ]
    exact (ih fun k hk => hn k (by omega)).setReg _ (hn n (Nat.lt_succ_self n))

theorem Frame.setMem (h : Frame regs parts s t) (m : Memory) (hp : Part.mem ∈ parts) :
    Frame regs parts s (t.setMem m) := by
  simpa [Frame, hp] using h

theorem Frame.memWrite (h : Frame regs parts s t) (a : Nat) (b : Byte) (hp : Part.mem ∈ parts) :
    Frame regs parts s (t.memWrite a b) := h.setMem _ hp

theorem Frame.storeRegs (h : Frame regs parts s t) (n : Nat) (hp : Part.mem ∈ parts) :
    Frame regs parts s (t.storeRegs n) := by
  rw [State.storeRegs_eq]
  exact h.setMem _ hp

theorem Frame.setI (h : Frame regs parts s t) (w : Word) (hp : Part.i ∈ parts) : Frame regs parts s (t.setI w) := by
  simpa [Frame, hp] using h

theorem Frame.setDt (h : Frame regs parts s t) (b : Byte) (hp : Part.dt ∈ parts) : Frame regs parts s (t.setDt b) := by
  simpa [Frame, hp] using h

theorem Frame.setSt (h : Frame regs parts s t) (b : Byte) (hp : Part.st ∈ parts) : Frame regs parts s (t.setSt b) := by
  simpa [Frame, hp] using h

theorem Frame.setDisp (h : Frame regs parts s t) (d : Display) (hp : Part.disp ∈ parts) :
    Frame regs parts s (t.setDisp d) := by
  simpa [Frame, hp] using h

theorem Frame.setFault (h : Frame regs parts s t) (c : FaultCode) (hp : Part.fault ∈ parts) :
    Frame regs parts s (t.setFault c) := by
  simpa [Frame, hp] using h

theorem Frame.nextDraw (h : Frame regs parts s t) (hp : Part.draws ∈ parts) : Frame regs parts s t.nextDraw := by
  simpa [Frame, hp] using h

theorem Frame.withSp (h : Frame regs parts s t) (n : Fin 17) (hp : Part.sp ∈ parts) :
    Frame regs parts s { t with sp := n } := by
  simpa [Frame, hp, State.reg, State.memRead] using h

theorem Frame.withStackSp (h : Frame regs parts s t) (stack : Vector Word 16) (n : Fin 17) (hstack : Part.stack ∈ parts)
    (hp : Part.sp ∈ parts) : Frame regs parts s { t with stack := stack, sp := n } := by
  simpa [Frame, hstack, hp, State.reg, State.memRead] using h

end Frames

/-! ### What RET and CALL can do -/

theorem execRet_empty {s : State} (h : s.sp.val = 0) : exec .ret s = raise .stackUnderflow s :=
  exec_of_faultRaised (by simp [faultRaised, h])

theorem execRet_live {s : State} {k : Fin 16} (h : s.sp.val = k.val + 1) :
    exec .ret s = .next ({ s with sp := k.castSucc }.setPc s.stack[k]) := by
  simp only [exec, execRet, State.pop_live s k h]

/-- Everything `RET` can do, R73. -/
theorem execRet_cases {s t : State} (h : exec .ret s = .next t) :
    (s.sp.val = 0 ∧ t = s.setFault .stackUnderflow) ∨
    (∃ k : Fin 16, s.sp.val = k.val + 1 ∧ t = { s with sp := k.castSucc }.setPc s.stack[k]) := by
  obtain ⟨hsp, -⟩ | ⟨k, hsp, -⟩ := State.pop_cases s
  · rw [execRet_empty hsp] at h
    cases h; exact .inl ⟨hsp, rfl⟩
  · rw [execRet_live hsp] at h
    cases h; exact .inr ⟨k, hsp, rfl⟩

theorem execCall_full {nnn : Addr} {s : State} (h : s.sp.val = 16) : exec (.call nnn) s = raise .stackOverflow s :=
  exec_of_faultRaised (by simp [faultRaised, h])

theorem execCall_free {nnn : Addr} {s : State} (h : s.sp.val < 16) :
    exec (.call nnn) s =
      .next ({ s with stack := s.stack.set s.sp.val (s.pc + 2) h, sp := ⟨s.sp.val + 1, Nat.succ_lt_succ h⟩ }.setPc
        (nnn.setWidth 16)) := by
  simp only [exec, execCall, State.push_free s _ h]

/-- Everything `CALL` can do, R75. -/
theorem execCall_cases {nnn : Addr} {s t : State} (h : exec (.call nnn) s = .next t) :
    (s.sp.val = 16 ∧ t = s.setFault .stackOverflow) ∨
    (∃ hfree : s.sp.val < 16, t =
      { s with stack := s.stack.set s.sp.val (s.pc + 2) hfree, sp := ⟨s.sp.val + 1, Nat.succ_lt_succ hfree⟩ }.setPc
        (nnn.setWidth 16)) := by
  obtain ⟨hsp, -⟩ | ⟨hfree, -⟩ := State.push_cases s (s.pc + 2)
  · rw [execCall_full hsp] at h
    cases h; exact .inl ⟨hsp, rfl⟩
  · rw [execCall_free hfree] at h
    cases h; exact .inr ⟨hfree, rfl⟩

/-! ### What an instruction writes, R15 to R17 -/

theorem ofNat_mem_regsUpTo {x : Nibble} {k : Nat} (hk : k < x.toNat + 1) : BitVec.ofNat 4 k ∈ regsUpTo x :=
  List.mem_map_of_mem (List.mem_range.mpr hk)

/-- Settles O17: each instruction's frame, operation by operation in the order of its meaning. -/
theorem instructionsWriteOnlyTheirTargets : Obligations.InstructionsWriteOnlyTheirTargets := by
  intro i s t h
  cases i with
  | ret =>
    obtain ⟨-, rfl⟩ | ⟨k, -, rfl⟩ := execRet_cases h
    · exact Frame.refl.setFault _ (by simp [writesOf])
    · exact (Frame.refl.withSp _ (by simp [writesOf])).setPc _
  | call nnn =>
    obtain ⟨-, rfl⟩ | ⟨-, rfl⟩ := execCall_cases h
    · exact Frame.refl.setFault _ (by simp [writesOf])
    · exact (Frame.refl.withStackSp _ _ (by simp [writesOf]) (by simp [writesOf])).setPc _
  | sys | ldVxK => cases h; exact Frame.refl.setFault _ (by simp [writesOf])
  | jp | jpV0 => cases h; exact Frame.refl.setPc _
  | seNn | sneNn | seVy | sneVy | skp | sknp => cases h; exact Frame.refl.skipIf _
  | ldNn | addNn | ldVy | orVy | andVy | xorVy | ldVxDt =>
    cases h; exact (Frame.refl.setReg _ (by simp [writesOf])).advance
  | addVy | sub | shr | subn | shl =>
    cases h; exact (Frame.refl.setResultFlag _ _ (by simp [writesOf]) (by simp [writesOf])).advance
  | rnd => cases h; exact ((Frame.refl.setReg _ (by simp [writesOf])).nextDraw (by simp [writesOf])).advance
  | ldVxMem x => cases h; exact (Frame.refl.loadRegs _ fun _ => ofNat_mem_regsUpTo).advance
  | cls => cases h; exact (Frame.refl.setDisp _ (by simp [writesOf])).advance
  | drw => cases h; exact ((Frame.refl.setDisp _ (by simp [writesOf])).setReg _ (by simp [writesOf])).advance
  | ldI | addIVx | ldFVx => cases h; exact (Frame.refl.setI _ (by simp [writesOf])).advance
  | ldDtVx => cases h; exact (Frame.refl.setDt _ (by simp [writesOf])).advance
  | ldStVx => cases h; exact (Frame.refl.setSt _ (by simp [writesOf])).advance
  | ldBVx =>
    have hp : Part.mem ∈ [Part.mem] := List.mem_singleton_self _
    cases h; exact (((Frame.refl.memWrite _ _ hp).memWrite _ _ hp).memWrite _ _ hp).advance
  | ldMemVx => cases h; exact (Frame.refl.storeRegs _ (by simp [writesOf])).advance
  | unrecognized => cases h; exact Frame.refl.advance

/-! ### How an instruction moves `PC`, R18 -/

@[simp] theorem State.storeRegs_pc (s : State) (n : Nat) : (s.storeRegs n).pc = s.pc := by
  rw [State.storeRegs_eq]; rfl

@[simp] theorem State.loadRegs_pc (s : State) (n : Nat) : (s.loadRegs n).pc = s.pc := by
  rw [State.loadRegs_eq]

theorem State.skipIf_pc_cases (s : State) (c : Bool) :
    (s.skipIf c).pc = s.pc + 2 ∨ (s.skipIf c).pc = s.pc + 4 := by
  cases c
  · exact .inl rfl
  · exact .inr rfl

/-- The target of `JP V0,NNN` fits in 16 bits, so nothing is cut off (R80). -/
theorem toNat_jpV0_target (nnn : Addr) (b : Byte) :
    (nnn.setWidth 16 + b.setWidth 16 : Word).toNat = nnn.toNat + b.toNat := by
  bv_omega

/-- Settles O18: the transfers by their own rules, every other instruction by the end it shares with its row. -/
theorem programCounterMovesByTheTable : Obligations.ProgramCounterMovesByTheTable := by
  intro i s t h
  cases i with
  | ret =>
    obtain ⟨hsp, rfl⟩ | ⟨k, hsp, rfl⟩ := execRet_cases h
    · exact .inl ⟨hsp, rfl⟩
    · exact .inr ⟨k, hsp, rfl⟩
  | call nnn =>
    obtain ⟨hsp, rfl⟩ | ⟨hsp, rfl⟩ := execCall_cases h
    · exact .inl ⟨hsp, rfl⟩
    · exact .inr ⟨Nat.ne_of_lt hsp, rfl⟩
  | jpV0 nnn => cases h; exact toNat_jpV0_target nnn (s.reg 0x0#4)
  | seNn | sneNn | seVy | sneVy | skp | sknp => cases h; exact State.skipIf_pc_cases s _
  | ldMemVx x => cases h; simp [PcMoves]
  | ldVxMem x => cases h; simp [PcMoves]
  | _ => cases h; rfl

/-! ### What changes `VF`, R17 -/

theorem State.setFlag_flagReg_cases (s : State) (c : Bool) :
    (s.setFlag c).reg flagReg = 0x00#8 ∨ (s.setFlag c).reg flagReg = 0x01#8 := by
  cases c
  · exact .inl (by simp [flagByte])
  · exact .inr (by simp [flagByte])

theorem eq_of_flagReg_mem_regsUpTo {x : Nibble} (h : flagReg ∈ regsUpTo x) : x = flagReg := by
  obtain ⟨k, hk, hkf⟩ := List.mem_map.mp h
  rw [List.mem_range] at hk
  have hk15 : k % 16 = 15 := by simpa using congrArg BitVec.toNat hkf
  have hx : x.toNat < 16 := x.isLt
  have hx15 : x.toNat = 15 := by omega
  exact BitVec.eq_of_toNat_eq hx15

/-- Settles O19: the six writers end in the flag write; a changed `VF` is among the registers O17 names. -/
theorem flagRegisterHasSixWriters : Obligations.FlagRegisterHasSixWriters := by
  intro i s t h
  constructor
  · rintro ⟨x, y, rfl | rfl | rfl | rfl | rfl | ⟨n, rfl⟩⟩ <;> cases h <;> exact State.setFlag_flagReg_cases _ _
  · intro hne
    obtain ⟨hregs, -⟩ := instructionsWriteOnlyTheirTargets i s t h
    have hmem : flagReg ∈ (writesOf i).1 := not_imp_comm.mp (hregs flagReg) hne
    clear h hregs
    cases i with
    | addVy x y | sub x y | shr x y | subn x y | shl x y => exact .inl ⟨x, y, by simp⟩
    | drw x y n => exact .inl ⟨x, y, by simp⟩
    | ldNn x nn | addNn x nn | rnd x nn =>
      obtain rfl := List.mem_singleton.mp hmem
      exact .inr (.inl ⟨nn, by simp⟩)
    | ldVy x y | orVy x y | andVy x y | xorVy x y =>
      obtain rfl := List.mem_singleton.mp hmem
      exact .inr (.inr (.inl ⟨y, by simp⟩))
    | ldVxDt x =>
      obtain rfl := List.mem_singleton.mp hmem
      simp
    | ldVxMem x =>
      obtain rfl := eq_of_flagReg_mem_regsUpTo hmem
      simp
    | _ => cases hmem

/-! ### The halted machine, R26, R143 -/

/-- `t` differs from `s` in `KEYS` and `PAUSED` at most, the two parts that the host writes in every state. -/
def EqButKeysPaused (s t : State) : Prop := t = { s with keys := t.keys, paused := t.paused }

theorem EqButKeysPaused.refl (s : State) : EqButKeysPaused s s := rfl

theorem EqButKeysPaused.fault {s t : State} (h : EqButKeysPaused s t) : t.fault = s.fault := by rw [h]

/-- A halted tick does nothing (R143). -/
theorem step_halted {s : State} (h : s.fault ≠ .running) : step s = .next s :=
  step_suspended s (by simp [State.suspended, h])

/-- No event but `Create` changes more than `KEYS` and `PAUSED` of a halted machine. -/
theorem after_keeps_eqButKeysPaused {s u t : State} {e : HostEvent} (hs : s.fault ≠ .running)
    (hu : EqButKeysPaused s u) (he : ∀ image, e ≠ .create image) (h : after e u = .next t) : EqButKeysPaused s t := by
  cases e with
  | create image => exact absurd rfl (he image)
  | tick =>
    have hstep : step u = .next u := step_halted (hu.fault ▸ hs)
    obtain rfl : u = t := by simpa [after, hstep] using h
    exact hu
  | setKeys k => cases h; unfold EqButKeysPaused; rw [hu]; rfl
  | setPause b => cases h; unfold EqButKeysPaused; rw [hu]; rfl
  | readDisplay | readSound | readFault => cases h; exact hu

/-- What each event of a run keeps, the run keeps. -/
theorem afterAll_keeps_of_mem {P : State → Prop} (es : List HostEvent)
    (hP : ∀ e ∈ es, ∀ s t, P s → after e s = .next t → P t) {s t : State} (hs : P s) (h : afterAll es s = .next t) :
    P t := by
  induction es generalizing s with
  | nil => cases h; exact hs
  | cons e rest ih =>
    unfold afterAll at h
    split at h
    next u hu =>
      exact ih (fun e' he' => hP e' (List.mem_cons_of_mem e he')) (hP e List.mem_cons_self s u hs hu) h
    next => cases h
    next => cases h

/-- Settles O21: by the run's events, none of them a `Create`. -/
theorem onlyCreateLeavesTheHaltedState : Obligations.OnlyCreateLeavesTheHaltedState :=
  fun es s _ hs hes h => afterAll_keeps_of_mem (P := EqButKeysPaused s) es
    (fun _ he _ _ hu => after_keeps_eqButKeysPaused hs hu fun image heq => hes image (heq ▸ he)) (.refl s) h

/-! ### Bits 15 to 12 of addresses, R18, R19

`SameBelow4096` is a congruence: every operation of the machine keeps it, because an address is reduced modulo 4096
wherever it is used (R34). -/

/-- Equal additions keep two words equal in their low 12 bits. -/
theorem toNat_add_mod_4096 {w w' : Word} (h : w'.toNat % 4096 = w.toNat % 4096) (c : Word) :
    (w' + c).toNat % 4096 = (w + c).toNat % 4096 := by
  simp only [BitVec.toNat_add]
  omega

/-- `s` with other values in the three parts that hold addresses. -/
def State.withAddresses (s : State) (p i : Word) (stack : Vector Word 16) : State :=
  { s with pc := p, i := i, stack := stack }

namespace SameBelow4096

variable {s t : State}

/-- What neither reads nor writes the three parts keeps the relation. -/
theorem map {f : State → State} (h : SameBelow4096 s t)
    (hf : ∀ p i stack, f (s.withAddresses p i stack) = (f s).withAddresses p i stack) : SameBelow4096 (f s) (f t) := by
  obtain ⟨ht, hpc, hi, hstack⟩ := h
  have hft : f t = (f s).withAddresses t.pc t.i t.stack := (congrArg f ht).trans (hf _ _ _)
  have hfs : f s = (f s).withAddresses s.pc s.i s.stack := hf s.pc s.i s.stack
  rw [hft, hfs]
  exact ⟨rfl, hpc, hi, hstack⟩

/-- What reads none of the three parts answers the same. -/
theorem congr {α : Sort*} {f : State → α} (h : SameBelow4096 s t)
    (hf : ∀ p i stack, f (s.withAddresses p i stack) = f s) : f t = f s := by
  obtain ⟨ht, -, -, -⟩ := h
  exact (congrArg f ht).trans (hf _ _ _)

/-! What the two states agree on -/

theorem mem (h : SameBelow4096 s t) : t.mem = s.mem := h.congr (f := State.mem) fun _ _ _ => rfl

theorem reg (h : SameBelow4096 s t) (x : Nibble) : t.reg x = s.reg x := h.congr (f := (State.reg · x)) fun _ _ _ => rfl

theorem sp (h : SameBelow4096 s t) : t.sp = s.sp := h.congr (f := State.sp) fun _ _ _ => rfl

theorem dt (h : SameBelow4096 s t) : t.dt = s.dt := h.congr (f := State.dt) fun _ _ _ => rfl

theorem disp (h : SameBelow4096 s t) : t.disp = s.disp := h.congr (f := State.disp) fun _ _ _ => rfl

theorem fault (h : SameBelow4096 s t) : t.fault = s.fault := h.congr (f := State.fault) fun _ _ _ => rfl

theorem rnd (h : SameBelow4096 s t) : t.rnd = s.rnd := h.congr (f := State.rnd) fun _ _ _ => rfl

theorem keyHeld (h : SameBelow4096 s t) (k : Nibble) : t.keyHeld k = s.keyHeld k :=
  h.congr (f := (State.keyHeld · k)) fun _ _ _ => rfl

theorem suspended (h : SameBelow4096 s t) : t.suspended = s.suspended := h.congr (f := State.suspended) fun _ _ _ => rfl

theorem pc_mod (h : SameBelow4096 s t) : t.pc.toNat % 4096 = s.pc.toNat % 4096 := by
  obtain ⟨-, hpc, -, -⟩ := h
  exact hpc

theorem i_mod (h : SameBelow4096 s t) : t.i.toNat % 4096 = s.i.toNat % 4096 := by
  obtain ⟨-, -, hi, -⟩ := h
  exact hi

theorem stack_mod (h : SameBelow4096 s t) (j : Fin 16) : t.stack[j].toNat % 4096 = s.stack[j].toNat % 4096 := by
  obtain ⟨-, -, -, hstack⟩ := h
  exact hstack j

/-! What they read from memory: the addresses reach the same cells -/

theorem cellOf_pc (h : SameBelow4096 s t) (k : Nat) : cellOf (t.pc.toNat + k) = cellOf (s.pc.toNat + k) :=
  Nat.ModEq.add_right k h.pc_mod

theorem cellOf_indexed (h : SameBelow4096 s t) (k : Nat) : cellOf (t.indexed k) = cellOf (s.indexed k) :=
  Nat.ModEq.add_right k h.i_mod

theorem memRead (h : SameBelow4096 s t) {a a' : Nat} (ha : cellOf a' = cellOf a) : t.memRead a' = s.memRead a := by
  unfold State.memRead
  rw [ha, h.mem]

theorem fetchInstr (h : SameBelow4096 s t) : t.fetchInstr = s.fetchInstr := by
  have hhi : t.memRead t.pc.toNat = s.memRead s.pc.toNat := h.memRead (h.cellOf_pc 0)
  have hlo : t.memRead (t.pc.toNat + 1) = s.memRead (s.pc.toNat + 1) := h.memRead (h.cellOf_pc 1)
  simp only [State.fetchInstr, State.fetchOpcode, hhi, hlo]

theorem drawSprite (h : SameBelow4096 s t) (x0 y0 n : Nat) : t.drawSprite x0 y0 n = s.drawSprite x0 y0 n := by
  have hrow : t.spriteRow = s.spriteRow := funext fun row => h.memRead (h.cellOf_indexed row)
  simp only [State.drawSprite, hrow, h.disp]

/-! The operations that write no address, given equal values -/

theorem setReg (h : SameBelow4096 s t) (x : Nibble) {b b' : Byte} (hb : b' = b) :
    SameBelow4096 (s.setReg x b) (t.setReg x b') := by
  subst hb
  exact h.map fun _ _ _ => rfl

theorem setResultFlag (h : SameBelow4096 s t) (x : Nibble) {b b' : Byte} {c c' : Bool} (hb : b' = b) (hc : c' = c) :
    SameBelow4096 (s.setResultFlag x b c) (t.setResultFlag x b' c') :=
  (h.setReg x hb).setReg flagReg (congrArg flagByte hc)

theorem setDt (h : SameBelow4096 s t) {b b' : Byte} (hb : b' = b) : SameBelow4096 (s.setDt b) (t.setDt b') := by
  subst hb
  exact h.map fun _ _ _ => rfl

theorem setSt (h : SameBelow4096 s t) {b b' : Byte} (hb : b' = b) : SameBelow4096 (s.setSt b) (t.setSt b') := by
  subst hb
  exact h.map fun _ _ _ => rfl

theorem setDisp (h : SameBelow4096 s t) {d d' : Display} (hd : d' = d) :
    SameBelow4096 (s.setDisp d) (t.setDisp d') := by
  subst hd
  exact h.map fun _ _ _ => rfl

theorem setFault (h : SameBelow4096 s t) (c : FaultCode) : SameBelow4096 (s.setFault c) (t.setFault c) :=
  h.map fun _ _ _ => rfl

theorem nextDraw (h : SameBelow4096 s t) : SameBelow4096 s.nextDraw t.nextDraw := h.map fun _ _ _ => rfl

theorem tickTimers (h : SameBelow4096 s t) : SameBelow4096 s.tickTimers t.tickTimers := h.map fun _ _ _ => rfl

theorem endCycle (h : SameBelow4096 s t) : SameBelow4096 s.endCycle t.endCycle := by
  by_cases hrun : s.fault = .running
  · rw [State.endCycle_running s hrun, State.endCycle_running t (h.fault.trans hrun)]
    exact h.tickTimers
  · rw [State.endCycle_faulted s hrun, State.endCycle_faulted t (h.fault ▸ hrun)]
    exact h

theorem memWrite (h : SameBelow4096 s t) {a a' : Nat} {b b' : Byte} (ha : cellOf a' = cellOf a) (hb : b' = b) :
    SameBelow4096 (s.memWrite a b) (t.memWrite a' b') := by
  subst hb
  unfold State.memWrite
  rw [ha, h.mem]
  exact h.map fun _ _ _ => rfl

theorem storeRegs (h : SameBelow4096 s t) (n : Nat) : SameBelow4096 (s.storeRegs n) (t.storeRegs n) := by
  induction n with
  | zero => exact h
  | succ n ih =>
    rw [State.storeRegs_succ, State.storeRegs_succ]
    exact ih.memWrite (h.cellOf_indexed n) (h.reg _)

theorem loadRegs (h : SameBelow4096 s t) (n : Nat) : SameBelow4096 (s.loadRegs n) (t.loadRegs n) := by
  induction n with
  | zero => exact h
  | succ n ih =>
    rw [State.loadRegs_succ, State.loadRegs_succ]
    exact ih.setReg _ (h.memRead (h.cellOf_indexed n))

/-! The operations that write an address, given addresses equal modulo 4096 -/

theorem setPc (h : SameBelow4096 s t) {w w' : Word} (hw : w'.toNat % 4096 = w.toNat % 4096) :
    SameBelow4096 (s.setPc w) (t.setPc w') := by
  obtain ⟨ht, -, hi, hstack⟩ := h
  exact ⟨congrArg (State.setPc w') ht, hw, hi, hstack⟩

theorem advance (h : SameBelow4096 s t) : SameBelow4096 s.advance t.advance :=
  h.setPc (toNat_add_mod_4096 h.pc_mod 2)

theorem skipIf (h : SameBelow4096 s t) {c c' : Bool} (hc : c' = c) : SameBelow4096 (s.skipIf c) (t.skipIf c') := by
  subst hc
  cases c'
  · exact h.setPc (toNat_add_mod_4096 h.pc_mod 2)
  · exact h.setPc (toNat_add_mod_4096 h.pc_mod 4)

theorem setI (h : SameBelow4096 s t) {w w' : Word} (hw : w'.toNat % 4096 = w.toNat % 4096) :
    SameBelow4096 (s.setI w) (t.setI w') := by
  obtain ⟨ht, hpc, -, hstack⟩ := h
  exact ⟨congrArg (State.setI w') ht, hpc, hw, hstack⟩

theorem withSp (h : SameBelow4096 s t) {n n' : Fin 17} (hn : n' = n) :
    SameBelow4096 { s with sp := n } { t with sp := n' } := by
  subst hn
  exact h.map (f := fun u => { u with sp := n' }) fun _ _ _ => rfl

theorem withStack (h : SameBelow4096 s t) {stack stack' : Vector Word 16}
    (hstack : ∀ j : Fin 16, stack'[j].toNat % 4096 = stack[j].toNat % 4096) :
    SameBelow4096 { s with stack := stack } { t with stack := stack' } := by
  obtain ⟨ht, hpc, hi, -⟩ := h
  exact ⟨congrArg (fun u : State => { u with stack := stack' }) ht, hpc, hi, hstack⟩

/-- Writing related words at the same entry keeps the stacks related. -/
theorem stack_set_mod (h : SameBelow4096 s t) {k k' : Nat} (hk : k < 16) (hk' : k' < 16) (hkk : k' = k) {w w' : Word}
    (hw : w'.toNat % 4096 = w.toNat % 4096) (j : Fin 16) :
    (t.stack.set k' w' hk')[j].toNat % 4096 = (s.stack.set k w hk)[j].toNat % 4096 := by
  subst hkk
  simp only [Fin.getElem_fin, Vector.getElem_set]
  split
  · exact hw
  · exact h.stack_mod j

end SameBelow4096

theorem execRet_keeps_sameBelow4096 {s t s' t' : State} (h : SameBelow4096 s t) (hs : exec .ret s = .next s')
    (ht : exec .ret t = .next t') : SameBelow4096 s' t' := by
  obtain ⟨hsp, rfl⟩ | ⟨k, hsp, rfl⟩ := execRet_cases hs
  · rw [execRet_empty (h.sp ▸ hsp)] at ht
    cases ht; exact h.setFault _
  · rw [execRet_live (h.sp ▸ hsp)] at ht
    cases ht; exact (h.withSp rfl).setPc (h.stack_mod k)

theorem execCall_keeps_sameBelow4096 {nnn : Addr} {s t s' t' : State} (h : SameBelow4096 s t)
    (hs : exec (.call nnn) s = .next s') (ht : exec (.call nnn) t = .next t') : SameBelow4096 s' t' := by
  obtain ⟨hsp, rfl⟩ | ⟨hfree, rfl⟩ := execCall_cases hs
  · rw [execCall_full (h.sp ▸ hsp)] at ht
    cases ht; exact h.setFault _
  · have hfree' : t.sp.val < 16 := h.sp ▸ hfree
    have hsp : t.sp.val = s.sp.val := congrArg Fin.val h.sp
    have hstack := h.stack_set_mod hfree hfree' hsp (toNat_add_mod_4096 h.pc_mod 2)
    rw [execCall_free hfree'] at ht
    cases ht; exact ((h.withStack hstack).withSp (Fin.ext (congrArg (· + 1) hsp))).setPc rfl

/-- Every instruction keeps the relation, operation by operation in the order of its meaning. -/
theorem exec_keeps_sameBelow4096 {i : Instr} {s t s' t' : State} (h : SameBelow4096 s t) (hs : exec i s = .next s')
    (ht : exec i t = .next t') : SameBelow4096 s' t' := by
  cases i with
  | ret => exact execRet_keeps_sameBelow4096 h hs ht
  | call nnn => exact execCall_keeps_sameBelow4096 h hs ht
  | sys | ldVxK => cases hs; cases ht; exact h.setFault _
  | jp nnn => cases hs; cases ht; exact h.setPc rfl
  | jpV0 nnn => cases hs; cases ht; exact h.setPc (by rw [h.reg])
  | seNn | sneNn | seVy | sneVy => cases hs; cases ht; exact h.skipIf (by simp only [h.reg])
  | skp | sknp => cases hs; cases ht; exact h.skipIf (by simp only [h.reg, h.keyHeld])
  | ldNn | addNn | ldVy | orVy | andVy | xorVy => cases hs; cases ht; exact (h.setReg _ (by simp only [h.reg])).advance
  | addVy | sub | shr | subn | shl =>
    cases hs; cases ht; exact (h.setResultFlag _ (by simp only [h.reg]) (by simp only [h.reg])).advance
  | rnd => cases hs; cases ht; exact (h.setReg _ (by rw [h.rnd])).nextDraw.advance
  | ldVxDt => cases hs; cases ht; exact (h.setReg _ h.dt).advance
  | ldVxMem => cases hs; cases ht; exact (h.loadRegs _).advance
  | cls => cases hs; cases ht; exact (h.setDisp rfl).advance
  | drw x y n =>
    have hdraw : t.drawSprite (t.reg x).toNat (t.reg y).toNat n.toNat =
        s.drawSprite (s.reg x).toNat (s.reg y).toNat n.toNat := by
      rw [h.reg, h.reg, h.drawSprite]
    cases hs; cases ht
    exact ((h.setDisp (congrArg Drawing.disp hdraw)).setReg _ (congrArg (flagByte ·.flag) hdraw)).advance
  | ldI => cases hs; cases ht; exact (h.setI rfl).advance
  | addIVx x => cases hs; cases ht; exact (h.setI (by rw [h.reg, toNat_add_mod_4096 h.i_mod])).advance
  | ldFVx => cases hs; cases ht; exact (h.setI (by rw [h.reg])).advance
  | ldDtVx => cases hs; cases ht; exact (h.setDt (h.reg _)).advance
  | ldStVx => cases hs; cases ht; exact (h.setSt (h.reg _)).advance
  | ldBVx x =>
    have h1 := h.memWrite (h.cellOf_indexed 0) (congrArg hundreds (h.reg x))
    have h2 := h1.memWrite (h.cellOf_indexed 1) (congrArg tens (h.reg x))
    have h3 := h2.memWrite (h.cellOf_indexed 2) (congrArg ones (h.reg x))
    cases hs; cases ht; exact h3.advance
  | ldMemVx => cases hs; cases ht; exact (h.storeRegs _).advance
  | unrecognized => cases hs; cases ht; exact h.advance

/-- Settles O22: related states are suspended together or fetch the same instruction, which keeps the relation. -/
theorem highAddressBitsAreUnobservable : Obligations.HighAddressBitsAreUnobservable := by
  intro s t s' t' h hs ht
  obtain ⟨hsusp, rfl⟩ | ⟨hawake, u, hu, rfl⟩ := step_cases s s' hs
  · rw [step_suspended t (h.suspended.trans hsusp)] at ht
    cases ht; exact h
  · obtain ⟨hsusp, -⟩ | ⟨-, u', hu', rfl⟩ := step_cases t t' ht
    · rw [h.suspended, hawake] at hsusp
      cases hsusp
    · rw [h.fetchInstr] at hu'
      exact (exec_keeps_sameBelow4096 h hu hu').endCycle

end Sys2Proof.Machine
end

section
/-! PROOFS. Memory (20_memory.md): the canonical form along a tick, and the two instructions that store, read back by the
fetch that follows them (R45). -/

namespace Sys2Proof.Machine

open Sys2Proof

/-- Settles O12: the end of the cycle does not touch `MEM`, and an instruction that does goes through `MemWrite`, which
keeps the form. -/
theorem tickKeepsMemoryCanonical : Obligations.TickKeepsMemoryCanonical :=
  fun _ _ hs h => step_keeps_memCanonical hs h

/-! ### What the two storing instructions leave in memory -/

/-- Offsets below 4096 from `I` reach different cells (R34, R104). -/
theorem State.cellOf_indexed_inj {s : State} {j k : Nat} (hj : j < Config.memSize) (hk : k < Config.memSize) :
    cellOf (s.indexed j) = cellOf (s.indexed k) ↔ j = k :=
  ⟨cellOf_add_inj hj hk, fun e => by rw [e]⟩

/-- Every cell after `LD [I],Vx` that one of its stores reaches: the register of that store (R102). -/
theorem execLdMemVx_memRead {x k : Nibble} {s t : State} {a : Nat} (hs : MemCanonical s)
    (h : exec (.ldMemVx x) s = .next t) (hk : k ≤ x) (ha : cellOf a = cellOf (s.indexed k.toNat)) :
    t.memRead a = s.reg k := by
  cases h
  have hkx : k.toNat < x.toNat + 1 := Nat.lt_succ_of_le (BitVec.le_def.mp hk)
  have hread := (State.memRead_storeRegs s hs (x.toNat + 1) (by omega) a).1 k.toNat hkx ha
  simpa [State.regAt] using hread

/-- Every cell after `LD B,Vx`: the digit stored there, or the byte from before (R101). -/
theorem execLdBVx_memRead {x : Nibble} {s t : State} (hs : MemCanonical s) (h : exec (.ldBVx x) s = .next t) (a : Nat) :
    t.memRead a =
      if cellOf a = cellOf (s.indexed 2) then ones (s.reg x)
      else if cellOf a = cellOf (s.indexed 1) then tens (s.reg x)
      else if cellOf a = cellOf (s.indexed 0) then hundreds (s.reg x)
      else s.memRead a := by
  cases h
  have hs1 := State.wf_memWrite s (s.indexed 0) (hundreds (s.reg x)) hs
  have hs2 := State.wf_memWrite _ (s.indexed 1) (tens (s.reg x)) hs1
  rw [State.advance_memRead, State.memRead_memWrite _ hs2, State.memRead_memWrite _ hs1, State.memRead_memWrite _ hs]

/-! ### The decimal digits as numbers, R101 -/

theorem toNat_hundreds (b : Byte) : (hundreds b).toNat = b.toNat / 100 % 10 := by
  simp only [hundreds, BitVec.toNat_ofNat]
  omega

theorem toNat_tens (b : Byte) : (tens b).toNat = b.toNat / 10 % 10 := by
  simp only [tens, BitVec.toNat_ofNat]
  omega

theorem toNat_ones (b : Byte) : (ones b).toNat = b.toNat % 10 := by
  simp only [ones, BitVec.toNat_ofNat]
  omega

/-- Every cell after `LD B,Vx` that its store number `k` reaches: the decimal digit of weight `10 ^ (2 - k)` (R101). -/
theorem execLdBVx_memRead_digit {x : Nibble} {s t : State} {a k : Nat} (hs : MemCanonical s)
    (h : exec (.ldBVx x) s = .next t) (hk : k < 3) (ha : cellOf a = cellOf (s.indexed k)) :
    (t.memRead a).toNat = (s.reg x).toNat / 10 ^ (2 - k) % 10 := by
  have hcell (j : Nat) (hj : j < 3) : cellOf a = cellOf (s.indexed j) ↔ k = j := by
    rw [ha]
    exact State.cellOf_indexed_inj (by simp only [Config.memSize]; omega) (by simp only [Config.memSize]; omega)
  simp only [execLdBVx_memRead hs h, hcell, Nat.reduceLT]
  obtain rfl | rfl | rfl : k = 0 ∨ k = 1 ∨ k = 2 := by omega
  · exact toNat_hundreds _
  · exact toNat_tens _
  · simpa using toNat_ones _

/-! ### The next fetch, R45 -/

/-- Settles O47: both instructions leave `PC` at the next instruction, whose two bytes the fetch reads from the cells that
the store wrote. -/
theorem storeIsSeenByTheNextFetch : Obligations.StoreIsSeenByTheNextFetch := by
  intro x s t hs
  refine ⟨fun h k hk => ?_, fun h k hk => ?_⟩
  · have hpc : t.pc = s.pc + 2 := programCounterMovesByTheTable _ s t h
    rw [State.fetchOpcode_high, State.fetchOpcode_low, hpc]
    exact ⟨fun hc => execLdMemVx_memRead hs h hk hc.symm, fun hc => execLdMemVx_memRead hs h hk hc.symm⟩
  · have hpc : t.pc = s.pc + 2 := programCounterMovesByTheTable _ s t h
    rw [State.fetchOpcode_high, State.fetchOpcode_low, hpc]
    exact ⟨fun hc => execLdBVx_memRead_digit hs h hk hc.symm, fun hc => execLdBVx_memRead_digit hs h hk hc.symm⟩

end Sys2Proof.Machine
end

section
/-! PROOFS. The decoder and the encoder (30_encoding.md R50 to R60): each undoes the other, so UNRECOGNIZED is the table
of R57. -/

namespace Sys2Proof

/-! ### The fields of a word put together from fields, one rule per field -/

@[simp] theorem fieldsOf_nnn_op (op : Nibble) (nnn : Addr) : (fieldsOf (op ++ nnn)).op = op := (fieldsOf_nnn op nnn).1

@[simp] theorem fieldsOf_nnn_nnn (op : Nibble) (nnn : Addr) : (fieldsOf (op ++ nnn)).nnn = nnn :=
  (fieldsOf_nnn op nnn).2

@[simp] theorem fieldsOf_xnn_op (op x : Nibble) (nn : Byte) : (fieldsOf (op ++ x ++ nn)).op = op :=
  (fieldsOf_xnn op x nn).1

@[simp] theorem fieldsOf_xnn_x (op x : Nibble) (nn : Byte) : (fieldsOf (op ++ x ++ nn)).x = x :=
  (fieldsOf_xnn op x nn).2.1

@[simp] theorem fieldsOf_xnn_nn (op x : Nibble) (nn : Byte) : (fieldsOf (op ++ x ++ nn)).nn = nn :=
  (fieldsOf_xnn op x nn).2.2

@[simp] theorem fieldsOf_xyn_op (op x y n : Nibble) : (fieldsOf (op ++ x ++ y ++ n)).op = op :=
  (fieldsOf_xyn op x y n).1

@[simp] theorem fieldsOf_xyn_x (op x y n : Nibble) : (fieldsOf (op ++ x ++ y ++ n)).x = x :=
  (fieldsOf_xyn op x y n).2.1

@[simp] theorem fieldsOf_xyn_y (op x y n : Nibble) : (fieldsOf (op ++ x ++ y ++ n)).y = y :=
  (fieldsOf_xyn op x y n).2.2.1

@[simp] theorem fieldsOf_xyn_n (op x y n : Nibble) : (fieldsOf (op ++ x ++ y ++ n)).n = n :=
  (fieldsOf_xyn op x y n).2.2.2

/-! ### A word is the fields it is cut into, for each format of R51 -/

section Rebuild

variable {w : Word} {op n : Nibble} {nn : Byte} {nnn : Addr}

theorem append_nnn_eq (hop : (fieldsOf w).op = op) (hnnn : (fieldsOf w).nnn = nnn) : op ++ nnn = w := by
  subst hop hnnn
  exact BitVec.extractLsb'_append_extractLsb' (w := 4) (len := 12)

theorem append_xnn_eq (hop : (fieldsOf w).op = op) (hnn : (fieldsOf w).nn = nn) : op ++ (fieldsOf w).x ++ nn = w := by
  subst hop hnn
  calc (fieldsOf w).op ++ (fieldsOf w).x ++ (fieldsOf w).nn
      = w.extractLsb' 8 8 ++ w.extractLsb' 0 8 :=
        congrArg (· ++ (fieldsOf w).nn) (BitVec.extractLsb'_append_extractLsb'_eq_extractLsb' rfl)
    _ = w := BitVec.extractLsb'_append_extractLsb' (w := 8) (len := 8)

theorem append_xyn_eq (hop : (fieldsOf w).op = op) (hn : (fieldsOf w).n = n) :
    op ++ (fieldsOf w).x ++ (fieldsOf w).y ++ n = w := by
  subst hop hn
  calc (fieldsOf w).op ++ (fieldsOf w).x ++ (fieldsOf w).y ++ (fieldsOf w).n
      = w.extractLsb' 8 8 ++ (fieldsOf w).y ++ (fieldsOf w).n :=
        congrArg (· ++ (fieldsOf w).y ++ (fieldsOf w).n) (BitVec.extractLsb'_append_extractLsb'_eq_extractLsb' rfl)
    _ = w.extractLsb' 4 12 ++ (fieldsOf w).n :=
        congrArg (· ++ (fieldsOf w).n) (BitVec.extractLsb'_append_extractLsb'_eq_extractLsb' rfl)
    _ = w := BitVec.extractLsb'_append_extractLsb' (w := 12) (len := 4)

end Rebuild

/-! ### The table of R57 by family and selector -/

/-- The selectors of family 8 that R55 gives a row. -/
def selectors8 : List Nibble := [0x0#4, 0x1#4, 0x2#4, 0x3#4, 0x4#4, 0x5#4, 0x6#4, 0x7#4, 0xE#4]

/-- The selectors of family E that R56 gives a row. -/
def selectorsE : List Byte := [0x9E#8, 0xA1#8]

/-- The selectors of family F that R56 gives a row. -/
def selectorsF : List Byte := [0x07#8, 0x0A#8, 0x15#8, 0x18#8, 0x1E#8, 0x29#8, 0x33#8, 0x55#8, 0x65#8]

/-- R57 lists for family 8 the selectors that are left over. -/
theorem not_mem_selectors8_iff (n : Nibble) : n ∉ selectors8 ↔
    n = 0x8#4 ∨ n = 0x9#4 ∨ n = 0xA#4 ∨ n = 0xB#4 ∨ n = 0xC#4 ∨ n = 0xD#4 ∨ n = 0xF#4 := by
  revert n; decide

theorem inUnrecognizedSpace_iff (w : Word) : inUnrecognizedSpace w = true ↔
    ((fieldsOf w).op = 0x5#4 ∧ (fieldsOf w).n ≠ 0x0#4) ∨
    ((fieldsOf w).op = 0x8#4 ∧ (fieldsOf w).n ∉ selectors8) ∨
    ((fieldsOf w).op = 0x9#4 ∧ (fieldsOf w).n ≠ 0x0#4) ∨
    ((fieldsOf w).op = 0xE#4 ∧ (fieldsOf w).nn ∉ selectorsE) ∨
    ((fieldsOf w).op = 0xF#4 ∧ (fieldsOf w).nn ∉ selectorsF) := by
  rw [not_mem_selectors8_iff]
  simp [inUnrecognizedSpace, fieldsOf, selectorsE, selectorsF, or_assoc, and_assoc]

/-- A word of R57's table reaches the last branch of its family. -/
theorem decode_of_inUnrecognizedSpace {w : Word} (h : inUnrecognizedSpace w = true) : decode w = .unrecognized w := by
  obtain ⟨hop, hn⟩ | ⟨hop, hn⟩ | ⟨hop, hn⟩ | ⟨hop, hnn⟩ | ⟨hop, hnn⟩ := (inUnrecognizedSpace_iff w).mp h
  · simp [decode, decodeFields, hop, hn]
  · simp only [selectors8, List.mem_cons, List.not_mem_nil, or_false, not_or] at hn
    simp [decode, decodeFields, decodeFamily8, hop, hn]
  · simp [decode, decodeFields, hop, hn]
  · simp only [selectorsE, List.mem_cons, List.not_mem_nil, or_false, not_or] at hnn
    simp [decode, decodeFields, decodeFamilyE, hop, hnn]
  · simp only [selectorsF, List.mem_cons, List.not_mem_nil, or_false, not_or] at hnn
    simp [decode, decodeFields, decodeFamilyF, hop, hnn]

/-! ### Decoding an encoded instruction -/

/-- The decoder follows the family and the selector that the encoder wrote: the kinds by family (R53 to R56). -/
theorem decode_encode {i : Instr} (h : i.wf = true) : decode (encode i) = i := by
  cases i with
  | cls | ret => rfl
  | sys nnn =>
    obtain ⟨hcls, hret⟩ : nnn ≠ 0x0E0#12 ∧ nnn ≠ 0x0EE#12 := by simpa [Instr.wf] using h
    simp [encode, decode, decodeFields, decodeFamily0, hcls, hret]
  | unrecognized w => exact decode_of_inUnrecognizedSpace h
  | jp | call | ldI | jpV0 | seNn | sneNn | ldNn | addNn | rnd | seVy | sneVy | drw =>
    simp [encode, decode, decodeFields]
  | ldVy | orVy | andVy | xorVy | addVy | sub | shr | subn | shl => simp [encode, decode, decodeFields, decodeFamily8]
  | skp | sknp => simp [encode, decode, decodeFields, decodeFamilyE]
  | ldVxDt | ldVxK | ldDtVx | ldStVx | addIVx | ldFVx | ldBVx | ldMemVx | ldVxMem =>
    simp [encode, decode, decodeFields, decodeFamilyF]

/-- Settles O1: kind by kind, the fields of the encoded word lead the decoder back. -/
theorem decodeOfEncodeIsIdentity : Obligations.DecodeOfEncodeIsIdentity :=
  fun _ h => decode_encode h

/-! ### Encoding a decoded word -/

/-- `w` is the word of the well-formed instruction `i`. -/
def IsWordOf (w : Word) (i : Instr) : Prop := i.wf = true ∧ encode i = w

section Families

variable {w : Word}

/-- One row of a family: the word's own instruction if the selector matches, else the rows after it. -/
theorem IsWordOf.ite {c : Prop} [Decidable c] {i j : Instr} (hrow : c → IsWordOf w i) (hrest : ¬ c → IsWordOf w j) :
    IsWordOf w (if c then i else j) :=
  iteInduction hrow hrest

theorem IsWordOf.unrecognized (h : inUnrecognizedSpace w = true) : IsWordOf w (.unrecognized w) := ⟨h, rfl⟩

theorem isWordOf_decodeFamily0 (hop : (fieldsOf w).op = 0x0#4) : IsWordOf w (decodeFamily0 (fieldsOf w)) :=
  .ite (fun h => ⟨rfl, append_nnn_eq hop h⟩) fun hcls =>
  .ite (fun h => ⟨rfl, append_nnn_eq hop h⟩) fun hret =>
  ⟨by simp [Instr.wf, hcls, hret], append_nnn_eq hop rfl⟩

theorem isWordOf_decodeFamily8 (hop : (fieldsOf w).op = 0x8#4) : IsWordOf w (decodeFamily8 w (fieldsOf w)) :=
  .ite (fun h => ⟨rfl, append_xyn_eq hop h⟩) fun h0 =>
  .ite (fun h => ⟨rfl, append_xyn_eq hop h⟩) fun h1 =>
  .ite (fun h => ⟨rfl, append_xyn_eq hop h⟩) fun h2 =>
  .ite (fun h => ⟨rfl, append_xyn_eq hop h⟩) fun h3 =>
  .ite (fun h => ⟨rfl, append_xyn_eq hop h⟩) fun h4 =>
  .ite (fun h => ⟨rfl, append_xyn_eq hop h⟩) fun h5 =>
  .ite (fun h => ⟨rfl, append_xyn_eq hop h⟩) fun h6 =>
  .ite (fun h => ⟨rfl, append_xyn_eq hop h⟩) fun h7 =>
  .ite (fun h => ⟨rfl, append_xyn_eq hop h⟩) fun hE =>
  have hn : (fieldsOf w).n ∉ selectors8 := by simp [selectors8, h0, h1, h2, h3, h4, h5, h6, h7, hE]
  .unrecognized ((inUnrecognizedSpace_iff w).mpr (by simp [hop, hn]))

theorem isWordOf_decodeFamilyE (hop : (fieldsOf w).op = 0xE#4) : IsWordOf w (decodeFamilyE w (fieldsOf w)) :=
  .ite (fun h => ⟨rfl, append_xnn_eq hop h⟩) fun h9E =>
  .ite (fun h => ⟨rfl, append_xnn_eq hop h⟩) fun hA1 =>
  have hnn : (fieldsOf w).nn ∉ selectorsE := by simp [selectorsE, h9E, hA1]
  .unrecognized ((inUnrecognizedSpace_iff w).mpr (by simp [hop, hnn]))

theorem isWordOf_decodeFamilyF (hop : (fieldsOf w).op = 0xF#4) : IsWordOf w (decodeFamilyF w (fieldsOf w)) :=
  .ite (fun h => ⟨rfl, append_xnn_eq hop h⟩) fun h07 =>
  .ite (fun h => ⟨rfl, append_xnn_eq hop h⟩) fun h0A =>
  .ite (fun h => ⟨rfl, append_xnn_eq hop h⟩) fun h15 =>
  .ite (fun h => ⟨rfl, append_xnn_eq hop h⟩) fun h18 =>
  .ite (fun h => ⟨rfl, append_xnn_eq hop h⟩) fun h1E =>
  .ite (fun h => ⟨rfl, append_xnn_eq hop h⟩) fun h29 =>
  .ite (fun h => ⟨rfl, append_xnn_eq hop h⟩) fun h33 =>
  .ite (fun h => ⟨rfl, append_xnn_eq hop h⟩) fun h55 =>
  .ite (fun h => ⟨rfl, append_xnn_eq hop h⟩) fun h65 =>
  have hnn : (fieldsOf w).nn ∉ selectorsF := by simp [selectorsF, h07, h0A, h15, h18, h1E, h29, h33, h55, h65]
  .unrecognized ((inUnrecognizedSpace_iff w).mpr (by simp [hop, hnn]))

/-- Families 5 and 9 have one row, at selector 0. -/
theorem isWordOf_oneRow {i : Instr} (hop : (fieldsOf w).op = 0x5#4 ∨ (fieldsOf w).op = 0x9#4)
    (hrow : (fieldsOf w).n = 0x0#4 → IsWordOf w i) :
    IsWordOf w (if (fieldsOf w).n = 0x0#4 then i else .unrecognized w) :=
  .ite hrow fun hn => .unrecognized ((inUnrecognizedSpace_iff w).mpr (by rcases hop with hop | hop <;> simp [hop, hn]))

end Families

/-- Every word is the word of the instruction it decodes to: the fields that the decoder cut it into, put together again,
family by family (R53). -/
theorem isWordOf_decode (w : Word) : IsWordOf w (decode w) :=
  .ite isWordOf_decodeFamily0 fun h0 =>
  .ite (fun h => ⟨rfl, append_nnn_eq h rfl⟩) fun h1 =>
  .ite (fun h => ⟨rfl, append_nnn_eq h rfl⟩) fun h2 =>
  .ite (fun h => ⟨rfl, append_xnn_eq h rfl⟩) fun h3 =>
  .ite (fun h => ⟨rfl, append_xnn_eq h rfl⟩) fun h4 =>
  .ite (fun h => isWordOf_oneRow (.inl h) fun hn => ⟨rfl, append_xyn_eq h hn⟩) fun h5 =>
  .ite (fun h => ⟨rfl, append_xnn_eq h rfl⟩) fun h6 =>
  .ite (fun h => ⟨rfl, append_xnn_eq h rfl⟩) fun h7 =>
  .ite isWordOf_decodeFamily8 fun h8 =>
  .ite (fun h => isWordOf_oneRow (.inr h) fun hn => ⟨rfl, append_xyn_eq h hn⟩) fun h9 =>
  .ite (fun h => ⟨rfl, append_nnn_eq h rfl⟩) fun hA =>
  .ite (fun h => ⟨rfl, append_nnn_eq h rfl⟩) fun hB =>
  .ite (fun h => ⟨rfl, append_xnn_eq h rfl⟩) fun hC =>
  .ite (fun h => ⟨rfl, append_xyn_eq h rfl⟩) fun hD =>
  .ite isWordOf_decodeFamilyE fun hE =>
  have hF : (fieldsOf w).op = 0xF#4 := by bv_omega
  isWordOf_decodeFamilyF hF

/-- Settles O2. -/
theorem encodeOfDecodeIsIdentity : Obligations.EncodeOfDecodeIsIdentity := isWordOf_decode

/-! ### The UNRECOGNIZED space and the worked words -/

/-- A word that decodes to UNRECOGNIZED is the word that is carried, since encoding gives it back. -/
theorem decode_eq_unrecognized_iff (w v : Word) : decode w = .unrecognized v ↔ v = w ∧ inUnrecognizedSpace w = true := by
  constructor
  · intro h
    obtain ⟨hwf, henc⟩ := isWordOf_decode w
    rw [h] at hwf henc
    obtain rfl : v = w := henc
    exact ⟨rfl, hwf⟩
  · rintro ⟨rfl, h⟩
    exact decode_of_inUnrecognizedSpace h

/-- Settles O3. -/
theorem unrecognizedSpaceIsTheTable : Obligations.UnrecognizedSpaceIsTheTable := by
  intro w
  simp only [decode_eq_unrecognized_iff, exists_eq_left]

/-- Settles O4: each word is the encoding of its instruction, and two bytes in memory order are one word. -/
theorem workedWordsDecode : Obligations.WorkedWordsDecode :=
  ⟨decode_encode (i := .cls) rfl, decode_encode (i := .ldNn 0xA 0x3C) rfl, decode_encode (i := .ldI 0x200) rfl,
    decode_encode (i := .ldFVx 0x0) rfl, decode_encode (i := .ret) rfl, decode_encode (i := .sys 0x000) rfl,
    decode_encode (i := .call 0xABC) rfl, decode_encode (i := .subn 0xA 0xB) rfl,
    decode_encode (i := .unrecognized 0x5121) rfl, decode_encode (i := .sknp 0x0) rfl,
    decode_encode (i := .ldVxMem 0x1) rfl, decode_encode (i := .drw 0x1 0x2 0x5) rfl, rfl⟩

end Sys2Proof
end

section
/-! PROOFS. The cycle (40_cycle_and_system.md R63 to R71): every instruction and every tick completes, what one tick does
with the outcome of its instruction, and the two kinds of this family, SYS and UNRECOGNIZED. -/

namespace Sys2Proof.Machine

open Sys2Proof

/-! ### Completion, R65 -/

/-- Every instruction answers a next state: of the operations of the machine only `Push` and `Pop` are partial, and the
two instructions that use them take a fault where these have no answer. -/
theorem exec_completes (i : Instr) (s : State) : ∃ t, exec i s = .next t := by
  cases i with
  | ret =>
    obtain ⟨hsp, -⟩ | ⟨k, hsp, -⟩ := State.pop_cases s
    · exact ⟨_, execRet_empty hsp⟩
    · exact ⟨_, execRet_live hsp⟩
  | call nnn =>
    obtain ⟨hsp, -⟩ | ⟨hfree, -⟩ := State.push_cases s (s.pc + 2)
    · exact ⟨_, execCall_full hsp⟩
    · exact ⟨_, execCall_free hfree⟩
  | _ => exact ⟨_, rfl⟩

/-- Every tick answers a next state: the same one if it is suspended, else the end of the fetched instruction's cycle. -/
theorem step_completes (s : State) : ∃ t, step s = .next t := by
  cases hs : s.suspended with
  | true => exact ⟨s, step_suspended s hs⟩
  | false =>
    obtain ⟨t, ht⟩ := exec_completes s.fetchInstr s
    exact ⟨t.endCycle, step_awake s t hs ht⟩

/-- Settles O6. -/
theorem everyInstructionAndTickCompletes : Obligations.EveryInstructionAndTickCompletes :=
  ⟨exec_completes, step_completes⟩

/-! ### Suspended ticks, R64, R143 -/

theorem State.suspended_eq_true (s : State) : s.suspended = true ↔ s.fault ≠ .running ∨ s.paused = true := by
  simp [State.suspended]

/-- A paused tick does nothing (R64). -/
theorem step_paused {s : State} (h : s.paused = true) : step s = .next s :=
  step_suspended s ((State.suspended_eq_true s).mpr (.inr h))

/-- A run of ticks goes on from the state that its first tick answers. -/
theorem run_succ_of_step {s t : State} (h : step s = .next t) (k : Nat) :
    Host.Core.run core (k + 1) s = Host.Core.run core k t := by
  have hstep : core.step s = .next t := h
  simp only [Host.Core.run, hstep]

/-- A state that one tick leaves as it is, any number of ticks does. -/
theorem run_of_step_self {s : State} (h : step s = .next s) (k : Nat) : Host.Core.run core k s = .next s := by
  induction k with
  | zero => rfl
  | succ k ih => rw [run_succ_of_step h, ih]

/-- Settles O7: one suspended tick changes nothing, so no number of them does. -/
theorem suspendedMachineStaysPut : Obligations.SuspendedMachineStaysPut :=
  fun k s h => run_of_step_self (step_suspended s ((State.suspended_eq_true s).mpr h)) k

/-! ### The two ends of a cycle, R67, R137 -/

/-- The timer block ends a tick whose instruction leaves no fault. -/
theorem step_of_exec_running {s t : State} (h : s.suspended = false) (he : exec s.fetchInstr s = .next t)
    (ht : t.fault = .running) : step s = .next t.tickTimers := by
  rw [step_awake s t h he, State.endCycle_running t ht]

/-- A tick whose instruction leaves a fault ends with the instruction. -/
theorem step_of_exec_faulted {s t : State} (h : s.suspended = false) (he : exec s.fetchInstr s = .next t)
    (ht : t.fault ≠ .running) : step s = .next t := by
  rw [step_awake s t h he, State.endCycle_faulted t ht]

/-- A tick that fetches an instruction which raises a fault is that fault's entry and nothing else. -/
theorem step_of_faultRaised {s : State} {c : FaultCode} (h : s.suspended = false)
    (hc : faultRaised s.fetchInstr s = some c) : step s = .next (s.setFault c) := by
  have hne : c ≠ .running := fun e => faultRaised_ne_running _ s (hc.trans (congrArg some e))
  exact step_of_exec_faulted h (exec_of_faultRaised hc) hne

/-- An instruction that leaves a running machine with a fault has raised it, so `FAULT` is its only change (R137). -/
theorem exec_eq_setFault_of_faulted {i : Instr} {s t : State} (hs : s.fault = .running) (h : exec i s = .next t)
    (ht : t.fault ≠ .running) : t = s.setFault t.fault := by
  cases hc : faultRaised i s with
  | none => exact absurd ((exec_fault_of_not_raised hc h).trans hs) ht
  | some c =>
    rw [exec_of_faultRaised hc] at h
    cases h; rfl

/-- Settles O5: the two suspended ticks, then the two ends of the fetched instruction's cycle. -/
theorem tickRunsTheDecodedInstruction : Obligations.TickRunsTheDecodedInstruction := by
  refine fun s => ⟨step_halted, step_paused, fun hrun hpaused i t hi he => ?_⟩
  have hawake : s.suspended = false := (State.suspended_eq_false s).mpr ⟨hrun, hpaused⟩
  obtain rfl : s.fetchInstr = i := hi
  exact ⟨step_of_exec_running hawake he,
    fun ht => ⟨step_of_exec_faulted hawake he ht, exec_eq_setFault_of_faulted hrun he ht⟩⟩

/-! ### SYS and UNRECOGNIZED, R70, R71 -/

/-- Settles O31: a SYS word other than those of CLS and RET decodes to SYS, which raises its fault in every state. -/
theorem sysFaults : Obligations.SysFaults := by
  refine fun nnn s => ⟨fun hcls hret => ?_, exec_of_faultRaised rfl, fun hawake hi => ?_⟩
  · exact decode_encode (i := .sys nnn) (by simp [Instr.wf, hcls, hret])
  · exact step_of_faultRaised hawake (by rw [hi]; rfl)

/-- Settles O33: the word decodes to UNRECOGNIZED, whose advance of `PC` leaves no fault, so the timer block follows. -/
theorem unrecognizedIsNoOperation : Obligations.UnrecognizedIsNoOperation := by
  intro w s hw
  have hdecode : decode w = .unrecognized w := decode_of_inUnrecognizedSpace hw
  have hexec : exec (.unrecognized w) s = .next s.advance := rfl
  refine ⟨hdecode, hexec, fun hawake hfetch => ?_⟩
  have hi : s.fetchInstr = .unrecognized w := by rw [State.fetchInstr, hfetch, hdecode]
  obtain ⟨hrun, -⟩ := (State.suspended_eq_false s).mp hawake
  exact step_of_exec_running (t := s.advance) hawake (by rw [hi, hexec]) hrun

end Sys2Proof.Machine
end

section
/-! PROOFS. The control-transfer instructions (41_control_flow.md R73 to R81): the jumps, CALL and RET alone and in a row,
the skips, and the jump to its own address run tick after tick. -/

namespace Sys2Proof.Machine

open Sys2Proof

/-! ### The jumps, R74, R80 -/

/-- A 12-bit address zero-extended to `PC` is the same number. -/
theorem toNat_setWidth_addr (nnn : Addr) : (nnn.setWidth 16 : Word).toNat = nnn.toNat :=
  BitVec.toNat_setWidth_of_le (by decide)

/-- Settles O25. -/
theorem jpSetsPc : Obligations.JpSetsPc :=
  fun nnn s => ⟨decode_encode (i := .jp nnn) rfl, s.setPc (nnn.setWidth 16), rfl, toNat_setWidth_addr nnn,
    Frame.refl.setPc _⟩

/-- Settles O30: the target never leaves 16 bits. -/
theorem indexedJumpAddsV0 : Obligations.IndexedJumpAddsV0 :=
  fun nnn s => ⟨decode_encode (i := .jpV0 nnn) rfl, s.setPc (nnn.setWidth 16 + (s.reg 0x0#4).setWidth 16), rfl,
    toNat_jpV0_target nnn _, Frame.refl.setPc _⟩

/-! ### RET and CALL, R73, R75 -/

theorem Frame.withStack {regs : List Nibble} {parts : List Part} {s t : State} (h : Frame regs parts s t)
    (stack : Vector Word 16) (hp : Part.stack ∈ parts) : Frame regs parts s { t with stack := stack } := by
  simpa [Frame, hp, State.reg, State.memRead] using h

/-- Settles O24: the empty stack, then the pop of a live entry. -/
theorem retPopsIntoPc : Obligations.RetPopsIntoPc := by
  refine fun s => ⟨decode_encode (i := .ret) rfl, execRet_empty, fun k hk => ?_⟩
  exact ⟨_, execRet_live hk, rfl, rfl, rfl, (Frame.refl.withSp _ (by simp)).setPc _⟩

/-- Settles O26: the full stack, then the push, which writes the entry at SP and no other. -/
theorem callPushesReturnAddress : Obligations.CallPushesReturnAddress := by
  refine fun nnn s => ⟨decode_encode (i := .call nnn) rfl, execCall_full, fun k hk => ?_⟩
  have hfree : s.sp.val < 16 := hk ▸ k.isLt
  refine ⟨_, execCall_free hfree, toNat_setWidth_addr nnn, congrArg (· + 1) hk, ?_, fun j hj => ?_,
    (Frame.refl.withStackSp _ _ (by simp) (by simp)).setPc _⟩
  · simp [hk]
  · have hne : s.sp.val ≠ j.val := fun e => hj (Fin.ext (e.symm.trans hk))
    simp [Vector.getElem_set_ne, hne]

/-- RET pops the entry that CALL has pushed: of the two together only the entry above the live ones and `PC` are left
changed (R20: a pop erases nothing). -/
theorem exec_call_then_ret (nnn : Addr) {s : State} (h : s.sp.val < 16) :
    ∃ t, exec (.call nnn) s = .next t ∧
      exec .ret t = .next ({ s with stack := s.stack.set s.sp.val (s.pc + 2) h }.setPc (s.pc + 2)) := by
  refine ⟨_, execCall_free h, ?_⟩
  rw [execRet_live (k := ⟨s.sp.val, h⟩) rfl]
  simp [State.setPc, Fin.castSucc]

/-- Settles O27: the entry that is left changed is not a live one. -/
theorem callThenReturnComesBack : Obligations.CallThenReturnComesBack := by
  intro nnn s h
  obtain ⟨t, hcall, hret⟩ := exec_call_then_ret nnn h
  refine ⟨t, _, hcall, hret, rfl, rfl, fun j hj => ?_, (Frame.refl.withStack _ (by simp)).setPc _⟩
  simp [Vector.getElem_set_ne, Nat.ne_of_gt hj]

/-! ### The skips, R76 to R79 -/

/-- What an instruction that ends in a skip on `P` does: `PC` moves by 4 or by 2, and nothing else changes. -/
theorem exec_skipIf_spec {i : Instr} {s : State} {c : Bool} {P : Prop} [Decidable P] (hc : c = true ↔ P)
    (h : exec i s = .next (s.skipIf c)) :
    ∃ t, exec i s = .next t ∧ t.pc = (if P then s.pc + 4 else s.pc + 2) ∧ Frame [] [] s t :=
  ⟨_, h, by simp only [State.skipIf_pc, hc], Frame.refl.skipIf c⟩

/-- Settles O28. -/
theorem immediateSkips : Obligations.ImmediateSkips :=
  fun x nn _ => ⟨decode_encode (i := .seNn x nn) rfl, decode_encode (i := .sneNn x nn) rfl,
    exec_skipIf_spec beq_iff_eq rfl, exec_skipIf_spec bne_iff_ne rfl⟩

/-- Settles O29. -/
theorem registerSkips : Obligations.RegisterSkips :=
  fun x y _ => ⟨decode_encode (i := .seVy x y) rfl, decode_encode (i := .sneVy x y) rfl,
    exec_skipIf_spec beq_iff_eq rfl, exec_skipIf_spec bne_iff_ne rfl⟩

/-! ### The jump to its own address, R74, R69 -/

/-- A timer that is decremented `k` times is down by `k`, and not below 0 (R120). -/
theorem toNat_iterate_countdown (k : Nat) (b : Byte) : (countdown^[k] b).toNat = b.toNat - k := by
  induction k with
  | zero => rfl
  | succ k ih => rw [Function.iterate_succ_apply', toNat_countdown, ih, Nat.sub_sub]

/-- The timer block, run any number of times, changes the timers only. -/
theorem State.iterate_tickTimers (k : Nat) (s : State) :
    State.tickTimers^[k] s = { s with dt := countdown^[k] s.dt, st := countdown^[k] s.st } := by
  induction k with
  | zero => rfl
  | succ k ih => rw [Function.iterate_succ_apply', ih, Function.iterate_succ_apply', Function.iterate_succ_apply']; rfl

/-- The spin: a machine that is neither halted nor paused, with a jump to `PC` at `PC`. -/
structure Spins (nnn : Addr) (s : State) : Prop where
  awake : s.suspended = false
  fetch : s.fetchInstr = .jp nnn
  target : s.pc = nnn.setWidth 16

/-- The spin looks at no timer. -/
theorem Spins.tickTimers {nnn : Addr} {s : State} (h : Spins nnn s) : Spins nnn s.tickTimers where
  awake := h.awake
  fetch := (State.fetchInstr_congr s s.tickTimers rfl rfl).trans h.fetch
  target := h.target

/-- The jump goes where `PC` is already, so the timer block is all that a tick of the spin does. -/
theorem Spins.step_eq {nnn : Addr} {s : State} (h : Spins nnn s) : step s = .next s.tickTimers := by
  have hexec : exec s.fetchInstr s = .next s :=
    calc exec s.fetchInstr s
        = .next (s.setPc (nnn.setWidth 16)) := by rw [h.fetch]; rfl
      _ = .next (s.setPc s.pc) := by rw [h.target]
      _ = .next s := rfl
  obtain ⟨hrun, -⟩ := (State.suspended_eq_false s).mp h.awake
  exact step_of_exec_running h.awake hexec hrun

theorem Spins.run_eq {nnn : Addr} {s : State} (h : Spins nnn s) (k : Nat) :
    Host.Core.run core k s = .next (State.tickTimers^[k] s) := by
  induction k generalizing s with
  | zero => rfl
  | succ k ih => rw [run_succ_of_step h.step_eq, ih h.tickTimers, Function.iterate_succ_apply]

/-- Settles O34: `k` ticks of the spin are `k` runs of the timer block. -/
theorem selfJumpSpinsSafely : Obligations.SelfJumpSpinsSafely := by
  intro nnn s hrun hpaused hfetch htarget k
  have hspin : Spins nnn s := ⟨(State.suspended_eq_false s).mpr ⟨hrun, hpaused⟩, hfetch, htarget⟩
  have hruns (j : Nat) : Host.Core.run core j s =
      .next { s with dt := countdown^[j] s.dt, st := countdown^[j] s.st } := by
    rw [hspin.run_eq, State.iterate_tickTimers]
  exact ⟨fun j _ => ⟨_, hruns j, hrun⟩,
    _, hruns k, rfl, toNat_iterate_countdown k s.dt, toNat_iterate_countdown k s.st⟩

end Sys2Proof.Machine
end

section
/-! PROOFS. The load, arithmetic, logic, shift and random instructions (42_load_alu.md R83 to R97): what the two ends they
share leave behind, with and without a flag, then the value each of them computes. -/

namespace Sys2Proof.Machine

open Sys2Proof

/-! ### The two ends of an instruction of this family, R66, R96, R97 -/

/-- What an instruction that writes `V[x]` and advances does: whatever holds of the value written holds of `V[x]`
afterwards, and no flag changes. -/
theorem exec_setReg_spec {i : Instr} {s : State} {x : Nibble} {b : Byte} {P : Byte → Prop}
    (h : exec i s = .next (s.setReg x b).advance) (hb : P b) :
    ∃ t, exec i s = .next t ∧ P (t.reg x) ∧ t.pc = s.pc + 2 ∧ Frame [x] [] s t :=
  ⟨_, h, by simpa using hb, rfl, (Frame.refl.setReg b (by simp)).advance⟩

/-- What an instruction that writes a result and then a flag and advances does: `VF` holds the flag for every `x`, and
`V[x]` the result unless the flag write has replaced it (R97). -/
theorem exec_setResultFlag_spec {i : Instr} {s : State} {x : Nibble} {b : Byte} {c : Bool} {P Q : Byte → Prop}
    (h : exec i s = .next (s.setResultFlag x b c).advance) (hc : P (flagByte c)) (hb : Q b) :
    ∃ t, exec i s = .next t ∧ P (t.reg 0xF#4) ∧ (x ≠ 0xF#4 → Q (t.reg x)) ∧ t.pc = s.pc + 2 ∧
      Frame [x, 0xF#4] [] s t :=
  ⟨_, h, by simpa using hc, fun hx => by simpa [hx] using hb, rfl,
    (Frame.refl.setResultFlag b c (by simp) (by simp)).advance⟩

/-! ### The results and the flags as numbers, R90 to R94 -/

theorem flagByte_addFlag (a b : Byte) :
    flagByte (addFlag a b) = if a.toNat + b.toNat > 255 then 0x01#8 else 0x00#8 := by
  simp [flagByte, addFlag]

theorem flagByte_subFlag (a b : Byte) : flagByte (subFlag a b) = if a.toNat > b.toNat then 0x01#8 else 0x00#8 := by
  simp [flagByte, subFlag]

theorem toNat_flagByte (c : Bool) : (flagByte c).toNat = c.toNat := by
  cases c <;> rfl

theorem toNat_flagByte_shrFlag (a : Byte) : (flagByte (shrFlag a)).toNat = a.toNat % 2 := by
  rw [toNat_flagByte, shrFlag, BitVec.getLsbD, Nat.toNat_testBit]
  omega

theorem toNat_flagByte_shlFlag (a : Byte) : (flagByte (shlFlag a)).toNat = a.toNat / 128 := by
  have ha : a.toNat < 256 := a.isLt
  rw [toNat_flagByte, shlFlag, BitVec.getLsbD, Nat.toNat_testBit]
  omega

theorem toNat_byte_sub (a b : Byte) : (a - b).toNat = (a.toNat + 256 - b.toNat) % 256 := by
  bv_omega

theorem toNat_byte_ushiftRight_one (a : Byte) : (a >>> 1).toNat = a.toNat / 2 := by
  rw [BitVec.toNat_ushiftRight, Nat.shiftRight_eq_div_pow, pow_one]

theorem toNat_byte_shiftLeft_one (a : Byte) : (a <<< 1).toNat = 2 * a.toNat % 256 := by
  rw [BitVec.toNat_shiftLeft, Nat.shiftLeft_eq, pow_one, Nat.mul_comm]

/-! ### No flag: the loads, the addition of an immediate, the bitwise operations and the random byte -/

/-- Settles O35. -/
theorem registerLoads : Obligations.RegisterLoads :=
  fun x y nn s => ⟨decode_encode (i := .ldNn x nn) rfl, decode_encode (i := .ldVy x y) rfl,
    exec_setReg_spec (P := (· = nn)) rfl rfl, exec_setReg_spec (P := (· = s.reg y)) rfl rfl⟩

/-- Settles O36. -/
theorem addImmediateWraps : Obligations.AddImmediateWraps :=
  fun x nn s => ⟨decode_encode (i := .addNn x nn) rfl,
    exec_setReg_spec (P := (·.toNat = _)) rfl (BitVec.toNat_add (s.reg x) nn)⟩

/-- Settles O37. -/
theorem logicIsBitwiseWithoutFlag : Obligations.LogicIsBitwiseWithoutFlag :=
  fun x y s => ⟨decode_encode (i := .orVy x y) rfl, decode_encode (i := .andVy x y) rfl,
    decode_encode (i := .xorVy x y) rfl,
    exec_setReg_spec (P := fun b => ∀ k, b.getLsbD k = ((s.reg x).getLsbD k || (s.reg y).getLsbD k)) rfl
      fun _ => BitVec.getLsbD_or,
    exec_setReg_spec (P := fun b => ∀ k, b.getLsbD k = ((s.reg x).getLsbD k && (s.reg y).getLsbD k)) rfl
      fun _ => BitVec.getLsbD_and,
    exec_setReg_spec (P := fun b => ∀ k, b.getLsbD k = ((s.reg x).getLsbD k ^^ (s.reg y).getLsbD k)) rfl
      fun _ => BitVec.getLsbD_xor⟩

/-- Settles O41: the register write, then the draw, which no register sees. -/
theorem randomByteIsMasked : Obligations.RandomByteIsMasked :=
  fun x nn s => ⟨decode_encode (i := .rnd x nn) rfl, (s.setReg x (s.rnd &&& nn)).nextDraw.advance, rfl,
    by simp [State.rnd], rfl, rfl, ((Frame.refl.setReg _ (by simp)).nextDraw (by simp)).advance⟩

/-! ### With a flag: the addition of registers, the subtractions and the shifts -/

/-- Settles O38. -/
theorem registerAddSetsCarry : Obligations.RegisterAddSetsCarry :=
  fun x y s => ⟨decode_encode (i := .addVy x y) rfl,
    exec_setResultFlag_spec (P := (· = _)) (Q := (·.toNat = _)) rfl (flagByte_addFlag (s.reg x) (s.reg y))
      (BitVec.toNat_add (s.reg x) (s.reg y))⟩

/-- Settles O39: the two differ in which register is the minuend. -/
theorem subtractsFlagStrictlyGreater : Obligations.SubtractsFlagStrictlyGreater :=
  fun x y s => ⟨decode_encode (i := .sub x y) rfl, decode_encode (i := .subn x y) rfl,
    exec_setResultFlag_spec (P := (· = _)) (Q := (·.toNat = _)) rfl (flagByte_subFlag (s.reg x) (s.reg y))
      (toNat_byte_sub (s.reg x) (s.reg y)),
    exec_setResultFlag_spec (P := (· = _)) (Q := (·.toNat = _)) rfl (flagByte_subFlag (s.reg y) (s.reg x))
      (toNat_byte_sub (s.reg y) (s.reg x))⟩

/-- Settles O40: result and flag are both functions of the old `V[x]` alone. -/
theorem shiftsUseTheirOwnRegister : Obligations.ShiftsUseTheirOwnRegister :=
  fun x y s => ⟨decode_encode (i := .shr x y) rfl, decode_encode (i := .shl x y) rfl,
    exec_setResultFlag_spec (P := (·.toNat = _)) (Q := (·.toNat = _)) rfl (toNat_flagByte_shrFlag (s.reg x))
      (toNat_byte_ushiftRight_one (s.reg x)),
    exec_setResultFlag_spec (P := (·.toNat = _)) (Q := (·.toNat = _)) rfl (toNat_flagByte_shlFlag (s.reg x))
      (toNat_byte_shiftLeft_one (s.reg x))⟩

end Sys2Proof.Machine
end

section
/-! PROOFS. The index-register and memory instructions (43_index_memory.md R98 to R105): the values written to `I`, the cells
and the registers that the transfers reach and those they do not, and the round trip through memory. -/

namespace Sys2Proof.Machine

open Sys2Proof

/-! ### The writes of `I`, R98 to R100 -/

/-- What an instruction that writes `I` and advances does: whatever holds of the value written holds of `I` afterwards. -/
theorem exec_setI_spec {i : Instr} {s : State} {w : Word} {P : Word → Prop} (h : exec i s = .next (s.setI w).advance)
    (hw : P w) : ∃ t, exec i s = .next t ∧ P t.i ∧ t.pc = s.pc + 2 ∧ Frame [] [.i] s t :=
  ⟨_, h, hw, rfl, (Frame.refl.setI w (by simp)).advance⟩

/-- `ADD I,Vx` adds in 16 bits, R99. -/
theorem toNat_add_setWidth_byte (w : Word) (b : Byte) :
    (w + b.setWidth 16).toNat = (w.toNat + b.toNat) % 65536 := by
  bv_omega

/-- The last glyph is at 75, so nothing of a glyph address is cut off (R100). -/
theorem toNat_glyphAddr_lowNibble (b : Byte) : (glyphAddr (lowNibble b)).toNat = 5 * (b.toNat % 16) := by
  simp only [glyphAddr, lowNibble, BitVec.toNat_ofNat, BitVec.extractLsb'_toNat, Nat.shiftRight_zero]
  omega

/-- Settles O42. -/
theorem indexRegisterLoads : Obligations.IndexRegisterLoads :=
  fun nnn x s => ⟨decode_encode (i := .ldI nnn) rfl, decode_encode (i := .addIVx x) rfl,
    decode_encode (i := .ldFVx x) rfl,
    exec_setI_spec (P := (·.toNat = _)) rfl (toNat_setWidth_addr nnn),
    exec_setI_spec (P := (·.toNat = _)) rfl (toNat_add_setWidth_byte s.i (s.reg x)),
    exec_setI_spec (P := (·.toNat = _)) rfl (toNat_glyphAddr_lowNibble (s.reg x))⟩

/-! ### The cells that a storing instruction does not reach, R101, R102 -/

/-- A cell that none of the three stores of `LD B,Vx` reaches reads as before (R101). -/
theorem execLdBVx_memRead_unreached {x : Nibble} {s t : State} {a : Nat} (hs : MemCanonical s)
    (h : exec (.ldBVx x) s = .next t) (ha : ∀ k, k < 3 → cellOf a ≠ cellOf (s.indexed k)) :
    t.memRead a = s.memRead a := by
  rw [execLdBVx_memRead hs h, if_neg (ha 2 (by decide)), if_neg (ha 1 (by decide)), if_neg (ha 0 (by decide))]

/-- A cell that none of the stores of `LD [I],Vx` reaches reads as before (R102). -/
theorem execLdMemVx_memRead_unreached {x : Nibble} {s t : State} {a : Nat} (hs : MemCanonical s)
    (h : exec (.ldMemVx x) s = .next t) (ha : ∀ k, k ≤ x.toNat → cellOf a ≠ cellOf (s.indexed k)) :
    t.memRead a = s.memRead a := by
  cases h
  exact (State.memRead_storeRegs s hs (x.toNat + 1) x.isLt a).2 fun k hk => ha k (Nat.le_of_lt_succ hk)

/-- Settles O43: the digits by the weight of their store, `PC` and the frame by the tables of every instruction. -/
theorem decimalDigitsAreStored : Obligations.DecimalDigitsAreStored := by
  refine fun x s hs => ⟨decode_encode (i := .ldBVx x) rfl, ?_⟩
  obtain ⟨t, h⟩ := exec_completes (.ldBVx x) s
  have hdigit (k : Nat) (hk : k < 3) : (t.memRead (s.indexed k)).toNat = (s.reg x).toNat / 10 ^ (2 - k) % 10 :=
    execLdBVx_memRead_digit hs h hk rfl
  have hhundreds : (s.reg x).toNat / 100 < 10 := by have := (s.reg x).isLt; omega
  exact ⟨t, h, (hdigit 0 (by decide)).trans (Nat.mod_eq_of_lt hhundreds), hdigit 1 (by decide),
    by simpa using hdigit 2 (by decide), fun _ => execLdBVx_memRead_unreached hs h,
    programCounterMovesByTheTable _ s t h, instructionsWriteOnlyTheirTargets _ s t h⟩

/-- Settles O44: the cells of the stores, the other cells, `PC` and the frame. -/
theorem bulkStoreStoresUpToX : Obligations.BulkStoreStoresUpToX := by
  refine fun x s hs => ⟨decode_encode (i := .ldMemVx x) rfl, ?_⟩
  obtain ⟨t, h⟩ := exec_completes (.ldMemVx x) s
  exact ⟨t, h, fun _ hk => execLdMemVx_memRead hs h hk rfl, fun _ => execLdMemVx_memRead_unreached hs h,
    programCounterMovesByTheTable _ s t h, instructionsWriteOnlyTheirTargets _ s t h⟩

/-! ### The bulk load, R103, and the round trip, R105 -/

/-- Every register up to `x` after `LD Vx,[I]`: the byte in its cell (R103). -/
theorem execLdVxMem_reg_of_le {x k : Nibble} {s t : State} (h : exec (.ldVxMem x) s = .next t) (hk : k ≤ x) :
    t.reg k = s.memRead (s.indexed k.toNat) := by
  cases h
  rw [State.advance_reg, State.reg_loadRegs s _ x.isLt, if_pos (Nat.lt_succ_of_le (BitVec.le_def.mp hk))]

/-- Every register above `x` after `LD Vx,[I]` is as before (R103). -/
theorem execLdVxMem_reg_of_lt {x k : Nibble} {s t : State} (h : exec (.ldVxMem x) s = .next t) (hk : x < k) :
    t.reg k = s.reg k := by
  cases h
  rw [State.advance_reg, State.reg_loadRegs s _ x.isLt, if_neg (Nat.not_lt_of_le (BitVec.lt_def.mp hk))]

/-- Settles O45: the registers up to `x`, those above it, `PC` and the frame. -/
theorem bulkLoadLoadsUpToX : Obligations.BulkLoadLoadsUpToX := by
  refine fun x s => ⟨decode_encode (i := .ldVxMem x) rfl, ?_⟩
  obtain ⟨t, h⟩ := exec_completes (.ldVxMem x) s
  exact ⟨t, h, fun _ => execLdVxMem_reg_of_le h, fun _ => execLdVxMem_reg_of_lt h,
    programCounterMovesByTheTable _ s t h, instructionsWriteOnlyTheirTargets _ s t h⟩

/-- Settles O46: the load reads the cell of `I + k`, which nothing has written since the store left `V[k]` there. -/
theorem storedRegistersComeBack : Obligations.StoredRegistersComeBack := by
  intro x s t u w hs hstore hi hkept hload k hk
  have hcell : cellOf (u.indexed k.toNat) = cellOf (s.indexed k.toNat) := by rw [State.indexed, State.indexed, hi]
  calc w.reg k
      = u.memRead (u.indexed k.toNat) := execLdVxMem_reg_of_le hload hk
    _ = t.memRead (u.indexed k.toNat) := hkept k.toNat (BitVec.le_def.mp hk)
    _ = s.reg k := execLdMemVx_memRead hs hstore hk hcell

end Sys2Proof.Machine
end

section
/-! PROOFS. The display (44_display.md R106 to R118) and what each host event can change: CLS; a draw as a list of
toggles, counted pixel by pixel; a draw inside the display and a draw done twice; the parts of the state and the events that
own them. -/

namespace Sys2Proof.Machine

open Sys2Proof

/-! ### CLS, R113 -/

/-- Settles O23. -/
theorem clsClearsTheDisplay : Obligations.ClsClearsTheDisplay :=
  fun s => ⟨decode_encode (i := .cls) rfl, (s.setDisp Display.clear).advance, rfl, Display.pixel_clear, rfl,
    (Frame.refl.setDisp _ (by simp)).advance⟩

/-! ### A list of toggles, R108, R111

The pixel and the detector after any list of toggles depend on it only through the number of times it names each
pixel. -/

/-- The toggles of a list of pixels in order, with the detector's updates. -/
def Drawing.hitAll (g : Drawing) (ps : List (Fin 64 × Fin 32)) : Drawing := ps.foldl (fun g p => g.hit p.1 p.2) g

theorem Drawing.hitAll_cons (g : Drawing) (p : Fin 64 × Fin 32) (ps : List (Fin 64 × Fin 32)) :
    g.hitAll (p :: ps) = (g.hit p.1 p.2).hitAll ps := rfl

/-- One more pixel in the list adds one to its own count and to no other. -/
theorem count_cons_pixel (ps : List (Fin 64 × Fin 32)) (px qx : Fin 64) (py qy : Fin 32) :
    ((qx, qy) :: ps).count (px, py) = ps.count (px, py) + if px = qx ∧ py = qy then 1 else 0 := by
  simp only [List.count_cons, beq_iff_eq, Prod.mk.injEq, @eq_comm _ px, @eq_comm _ py]

/-- A parity changes when one is added. -/
theorem decide_succ_mod_two (c : Nat) : decide ((c + 1) % 2 = 1) = !decide (c % 2 = 1) := by
  rw [← decide_not]
  exact decide_eq_decide.mpr (by omega)

/-- A pixel is inverted once for every time the list names it. -/
theorem Drawing.pixel_hitAll (g : Drawing) (ps : List (Fin 64 × Fin 32)) (px : Fin 64) (py : Fin 32) :
    (g.hitAll ps).disp.pixel px py = (g.disp.pixel px py ^^ decide (ps.count (px, py) % 2 = 1)) := by
  induction ps generalizing g with
  | nil => simp [Drawing.hitAll]
  | cons p ps ih =>
    obtain ⟨qx, qy⟩ := p
    rw [Drawing.hitAll_cons, ih, Drawing.hit_disp, Display.pixel_toggle, count_cons_pixel]
    by_cases hp : px = qx ∧ py = qy
    · simp [hp, decide_succ_mod_two]
    · simp [hp]

/-- Of `c` toggles of a pixel that was `on`, at least one leaves it on (R117): every second one does, so two are
enough, and one is if the pixel was off. -/
def SomeToggleLeavesOn (on : Bool) (c : Nat) : Prop := 2 ≤ c ∨ (c = 1 ∧ on = false)

theorem someToggleLeavesOn_succ (on : Bool) (c : Nat) :
    SomeToggleLeavesOn on (c + 1) ↔ on = false ∨ SomeToggleLeavesOn (!on) c := by
  cases on with
  | false => grind [SomeToggleLeavesOn]
  | true => grind [SomeToggleLeavesOn]

/-- The detector's bit after the list: set before, or some toggle of some pixel leaves it on (R111). -/
theorem Drawing.flag_hitAll (g : Drawing) (ps : List (Fin 64 × Fin 32)) :
    (g.hitAll ps).flag = true ↔
      g.flag = true ∨ ∃ px py, SomeToggleLeavesOn (g.disp.pixel px py) (ps.count (px, py)) := by
  induction ps generalizing g with
  | nil => simp [Drawing.hitAll, SomeToggleLeavesOn]
  | cons p ps ih =>
    obtain ⟨qx, qy⟩ := p
    have hpixel (px : Fin 64) (py : Fin 32) :
        SomeToggleLeavesOn (g.disp.pixel px py) (((qx, qy) :: ps).count (px, py)) ↔
          (px = qx ∧ py = qy ∧ g.disp.pixel px py = false) ∨
            SomeToggleLeavesOn ((g.hit qx qy).disp.pixel px py) (ps.count (px, py)) := by
      rw [Drawing.hit_disp, Display.pixel_toggle, count_cons_pixel]
      by_cases hp : px = qx ∧ py = qy
      · simp [hp, someToggleLeavesOn_succ]
      · simp [hp, ← and_assoc]
    simp only [hpixel, exists_or]
    rw [Drawing.hitAll_cons, ih, Drawing.hit_flag]
    simp [or_assoc]

/-! ### A draw as a list of toggles, R114 to R116 -/

/-- The pixels that a draw toggles, in order: the clamped positions of the set bits of the sprite. -/
def landings (s : State) (x0 y0 n : Nat) : List (Fin 64 × Fin 32) :=
  ((spritePositions n).filter fun rc => spriteBit (s.spriteRow rc.1) rc.2).map
    fun rc => (clampX (x0 + rc.2), clampY (y0 + rc.1))

/-- The two loops of R114 toggle the landings in order. -/
theorem State.drawSprite_eq (s : State) (x0 y0 n : Nat) :
    s.drawSprite x0 y0 n = Drawing.hitAll { disp := s.disp, flag := false } (landings s x0 y0 n) := by
  simp only [Drawing.hitAll, landings, spritePositions, List.foldl_map, List.foldl_filter, List.foldl_flatMap]
  rfl

/-- The list names a pixel as often as `hits` counts. -/
theorem count_landings (s : State) (x0 y0 n : Nat) (px : Fin 64) (py : Fin 32) :
    (landings s x0 y0 n).count (px, py) = hits s x0 y0 n px.val py.val := by
  rw [landings, List.count, List.countP_map, List.countP_filter, hits]
  refine List.countP_congr fun rc _ => ?_
  simp [landsOn, clampX, clampY, Fin.ext_iff, and_comm, and_assoc]

theorem State.pixel_drawSprite (s : State) (x0 y0 n : Nat) (px : Fin 64) (py : Fin 32) :
    (s.drawSprite x0 y0 n).disp.pixel px py =
      (s.disp.pixel px py ^^ decide (hits s x0 y0 n px.val py.val % 2 = 1)) := by
  rw [State.drawSprite_eq, Drawing.pixel_hitAll, count_landings]

theorem State.flag_drawSprite (s : State) (x0 y0 n : Nat) :
    (s.drawSprite x0 y0 n).flag = true ↔
      ∃ (px : Fin 64) (py : Fin 32), SomeToggleLeavesOn (s.disp.pixel px py) (hits s x0 y0 n px.val py.val) := by
  rw [State.drawSprite_eq, Drawing.flag_hitAll]
  simp [count_landings]

/-! ### DRW, R112, R114 -/

theorem flagByte_eq_one_iff (c : Bool) : flagByte c = 0x01#8 ↔ c = true := by
  cases c <;> decide

section Draw

variable {x y n : Nibble} {s t : State}

theorem execDrw_pixel (h : exec (.drw x y n) s = .next t) (px : Fin 64) (py : Fin 32) :
    t.disp.pixel px py =
      (s.disp.pixel px py ^^ decide (hits s (s.reg x).toNat (s.reg y).toNat n.toNat px.val py.val % 2 = 1)) := by
  cases h
  exact State.pixel_drawSprite s _ _ _ px py

theorem execDrw_flag (h : exec (.drw x y n) s = .next t) :
    t.reg 0xF#4 = 0x01#8 ↔ ∃ (px : Fin 64) (py : Fin 32),
      SomeToggleLeavesOn (s.disp.pixel px py) (hits s (s.reg x).toNat (s.reg y).toNat n.toNat px.val py.val) := by
  cases h
  rw [State.advance_reg, State.setFlag_reg, if_pos rfl, flagByte_eq_one_iff]
  exact State.flag_drawSprite s _ _ _

theorem execDrw_flag_cases (h : exec (.drw x y n) s = .next t) : t.reg 0xF#4 = 0x00#8 ∨ t.reg 0xF#4 = 0x01#8 :=
  (flagRegisterHasSixWriters _ s t h).1 ⟨x, y, by simp⟩

/-- A draw changes neither `MEM` nor `I`, so it leaves the sprite as it is. -/
theorem execDrw_spriteRow (h : exec (.drw x y n) s = .next t) : t.spriteRow = s.spriteRow := by
  cases h; rfl

end Draw

/-- Settles O48: the pixels and the flag by the count of the landings, `PC` and the frame by the tables of every
instruction. -/
theorem drawIsXorWithClampedHits : Obligations.DrawIsXorWithClampedHits := by
  refine fun x y n s => ⟨decode_encode (i := .drw x y n) rfl, ?_⟩
  obtain ⟨t, h⟩ := exec_completes (.drw x y n) s
  refine ⟨t, h, execDrw_pixel h, (execDrw_flag h).mpr, fun hoff => ?_, programCounterMovesByTheTable _ s t h,
    instructionsWriteOnlyTheirTargets _ s t h⟩
  refine (execDrw_flag_cases h).resolve_right fun hone => ?_
  obtain ⟨px, py, hon⟩ := (execDrw_flag h).mp hone
  obtain h0 | ⟨h1, hpix⟩ := hoff px py
  · simp [SomeToggleLeavesOn, h0] at hon
  · simp [SomeToggleLeavesOn, h1, hpix] at hon

/-- Settles O50: the second draw hits every pixel as often as the first, so each pixel is inverted an even number of
times. -/
theorem drawingTwiceRestoresTheDisplay : Obligations.DrawingTwiceRestoresTheDisplay := by
  intro x y n s t u hfirst hx hy hsecond
  have hhits (x0 y0 m px py : Nat) : hits t x0 y0 m px py = hits s x0 y0 m px py := by
    unfold hits landsOn
    rw [execDrw_spriteRow hfirst]
  refine Display.ext_pixel _ _ fun px py => ?_
  rw [execDrw_pixel hsecond, execDrw_pixel hfirst, hx, hy, hhits, Bool.xor_assoc, Bool.xor_self, Bool.xor_false]

/-! ### A sprite inside the display, R117 -/

theorem mem_spritePositions {n : Nat} {rc : Nat × Nat} : rc ∈ spritePositions n ↔ rc.1 < n ∧ rc.2 < 8 := by
  obtain ⟨r, c⟩ := rc
  simp [spritePositions]

theorem nodup_spritePositions (n : Nat) : (spritePositions n).Nodup :=
  List.nodup_range.product List.nodup_range

/-- Whether an unclamped sprite has a set bit at the pixel `(px, py)`. -/
def spriteCovers (s : State) (x0 y0 n px py : Nat) : Bool :=
  decide (x0 ≤ px ∧ px < x0 + 8 ∧ y0 ≤ py ∧ py < y0 + n) && spriteBit (s.spriteRow (py - y0)) (px - x0)

/-- Where nothing is clamped, the one bit of the sprite that can land on a pixel is the bit over it. -/
theorem landsOn_iff_of_inside (s : State) {x0 y0 n px py : Nat} (hx : x0 ≤ 56) (hy : y0 + n ≤ 32) {rc : Nat × Nat}
    (hrc : rc ∈ spritePositions n) :
    landsOn s x0 y0 px py rc = true ↔ rc = (py - y0, px - x0) ∧ spriteCovers s x0 y0 n px py = true := by
  obtain ⟨r, c⟩ := rc
  obtain ⟨hr, hc⟩ : r < n ∧ c < 8 := mem_spritePositions.mp hrc
  simp only [landsOn, spriteCovers, Bool.and_eq_true, decide_eq_true_eq, Prod.mk.injEq]
  constructor
  · rintro ⟨⟨hbit, hpx⟩, hpy⟩
    obtain rfl : r = py - y0 := by omega
    obtain rfl : c = px - x0 := by omega
    exact ⟨⟨rfl, rfl⟩, by omega, hbit⟩
  · rintro ⟨⟨rfl, rfl⟩, hin, hbit⟩
    exact ⟨⟨hbit, by omega⟩, by omega⟩

/-- Where nothing is clamped, a pixel is hit by the bit over it or not at all. -/
theorem hits_of_inside (s : State) {x0 y0 n : Nat} (hx : x0 ≤ 56) (hy : y0 + n ≤ 32) (px py : Nat) :
    hits s x0 y0 n px py = (spriteCovers s x0 y0 n px py).toNat := by
  have hlands {rc : Nat × Nat} (hrc : rc ∈ spritePositions n) :=
    landsOn_iff_of_inside s (px := px) (py := py) hx hy hrc
  cases hcov : spriteCovers s x0 y0 n px py with
  | false => exact List.countP_eq_zero.mpr fun rc hrc => by simp [hlands hrc, hcov]
  | true =>
    have hmem : (py - y0, px - x0) ∈ spritePositions n := by
      simp only [spriteCovers, Bool.and_eq_true, decide_eq_true_eq] at hcov
      exact mem_spritePositions.mpr (by omega)
    calc hits s x0 y0 n px py
        = (spritePositions n).count (py - y0, px - x0) :=
          List.countP_congr fun rc hrc => by simp [hlands hrc, hcov]
      _ = 1 := List.count_eq_one_of_mem (nodup_spritePositions n) hmem

/-- A pixel is hit at all exactly when some set bit of the sprite clamps to it. -/
theorem hits_pos_iff {s : State} {x0 y0 n : Nat} {px : Fin 64} {py : Fin 32} :
    0 < hits s x0 y0 n px.val py.val ↔ ∃ row col, row < n ∧ col < 8 ∧ spriteBit (s.spriteRow row) col = true ∧
      clampX (x0 + col) = px ∧ clampY (y0 + row) = py := by
  simp [hits, List.countP_pos_iff, mem_spritePositions, landsOn, clampX, clampY, Fin.ext_iff, and_assoc]

/-- Of at most one toggle of a pixel, one leaves it on exactly when there is one and the pixel was off. -/
theorem someToggleLeavesOn_of_le_one {on : Bool} {c : Nat} (hc : c ≤ 1) :
    SomeToggleLeavesOn on c ↔ 0 < c ∧ on = false := by
  grind [SomeToggleLeavesOn]

/-- A bit, read as a count of 0 or 1, is its own parity. -/
theorem decide_toNat_mod_two (b : Bool) : decide (b.toNat % 2 = 1) = b := by
  cases b <;> rfl

/-- Settles O49: a pixel is hit once or not at all, so the picture is inverted under the set bits, and the flag is set
by one of them on a pixel that was off. -/
theorem unclampedDrawIsPlainXor : Obligations.UnclampedDrawIsPlainXor := by
  intro x y n s t hx hy h
  have hhits := hits_of_inside s hx hy
  refine ⟨fun px py => ?_, ?_, (execDrw_flag_cases h).symm⟩
  · rw [execDrw_pixel h, hhits, decide_toNat_mod_two, spriteCovers]
  · have hle (px : Fin 64) (py : Fin 32) : hits s (s.reg x).toNat (s.reg y).toNat n.toNat px.val py.val ≤ 1 :=
      hhits px py ▸ Bool.toNat_le _
    simp only [execDrw_flag h, someToggleLeavesOn_of_le_one (hle _ _), hits_pos_iff]
    constructor
    · rintro ⟨px, py, ⟨row, col, hrow, hcol, hbit, rfl, rfl⟩, hoff⟩
      exact ⟨row, col, hrow, hcol, hbit, hoff⟩
    · rintro ⟨row, col, hrow, hcol, hbit, hoff⟩
      exact ⟨_, _, ⟨row, col, hrow, hcol, hbit, rfl, rfl⟩, hoff⟩

/-! ### What each host event can change, R25, R28, R42, R46, R109 -/

theorem disp_mem_writesOf {i : Instr} (h : Part.disp ∈ (writesOf i).2) : i = .cls ∨ ∃ x y n, i = .drw x y n := by
  cases i with
  | cls => exact .inl rfl
  | drw x y n => exact .inr ⟨x, y, n, rfl⟩
  | _ => simp [writesOf] at h

theorem keys_not_mem_writesOf (i : Instr) : Part.keys ∉ (writesOf i).2 := by
  cases i <;> simp [writesOf]

theorem paused_not_mem_writesOf (i : Instr) : Part.paused ∉ (writesOf i).2 := by
  cases i <;> simp [writesOf]

/-- A tick does nothing, or it is the fetched instruction and a change of the timers. -/
theorem step_cases_timers {s t : State} (h : step s = .next t) :
    t = s ∨ ∃ u d c, exec s.fetchInstr s = .next u ∧ t = (u.setDt d).setSt c := by
  obtain ⟨-, rfl⟩ | ⟨-, u, hu, rfl⟩ := step_cases s t h
  · exact .inl rfl
  · obtain ⟨d, c, hend⟩ := State.endCycle_eq u
    exact .inr ⟨u, d, c, hu, hend⟩

/-- What a tick can change of the four parts: `DISP` and `MEM` by the instruction it fetches, the other two not. -/
theorem step_changes {s t : State} (h : step s = .next t) :
    (t.disp ≠ s.disp → s.fetchInstr = .cls ∨ ∃ x y n, s.fetchInstr = .drw x y n) ∧
    (t.mem ≠ s.mem → ∃ x, s.fetchInstr = .ldBVx x ∨ s.fetchInstr = .ldMemVx x) ∧
    t.keys = s.keys ∧ t.paused = s.paused := by
  obtain rfl | ⟨u, d, c, hu, rfl⟩ := step_cases_timers h
  · simp
  · obtain ⟨-, -, -, -, -, -, -, hdisp, hkeys, hpaused, -, -⟩ := instructionsWriteOnlyTheirTargets _ s u hu
    refine ⟨fun hne => disp_mem_writesOf (not_imp_comm.mp hdisp hne), fun hne => ?_,
      hkeys (keys_not_mem_writesOf _), hpaused (paused_not_mem_writesOf _)⟩
    obtain hmem | ⟨x, hx⟩ | ⟨x, hx⟩ := exec_mem_cases hu
    · exact absurd hmem hne
    · exact ⟨x, .inl hx⟩
    · exact ⟨x, .inr hx⟩

/-- Settles O20: `Create` is named in every clause, a tick changes what its instruction writes, `SetKeys` and `SetPause`
write their own part, and the reads change nothing. -/
theorem eventsChangeOnlyWhatTheyOwn : Obligations.EventsChangeOnlyWhatTheyOwn := by
  intro e s t h
  cases e with
  | create image =>
    exact ⟨fun _ => .inl ⟨image, rfl⟩, fun _ => .inl ⟨image, rfl⟩, fun _ => .inl ⟨image, rfl⟩,
      fun _ => .inl ⟨image, rfl⟩⟩
  | tick =>
    obtain ⟨hdisp, hmem, hkeys, hpaused⟩ := step_changes h
    exact ⟨fun hne => .inr ⟨rfl, hdisp hne⟩, fun hne => .inr ⟨rfl, hmem hne⟩, absurd hkeys, absurd hpaused⟩
  | setKeys k => cases h; exact ⟨absurd rfl, absurd rfl, fun _ => .inr rfl, absurd rfl⟩
  | setPause b => cases h; exact ⟨absurd rfl, absurd rfl, absurd rfl, fun _ => .inr rfl⟩
  | readDisplay | readSound | readFault => cases h; exact ⟨absurd rfl, absurd rfl, absurd rfl, absurd rfl⟩

end Sys2Proof.Machine
end

section
/-! PROOFS. The timers and the keypad (45_timers_keypad.md R120 to R132): what one executed cycle and any number of them
do to each timer, the three timer transfers, the two key skips and the key wait. -/

namespace Sys2Proof.Machine

open Sys2Proof

/-! ### Which instruction writes which timer, R23, R24 -/

theorem dt_mem_writesOf {i : Instr} (h : Part.dt ∈ (writesOf i).2) : ∃ x, i = .ldDtVx x := by
  cases i with
  | ldDtVx x => exact ⟨x, rfl⟩
  | _ => simp [writesOf] at h

theorem st_mem_writesOf {i : Instr} (h : Part.st ∈ (writesOf i).2) : ∃ x, i = .ldStVx x := by
  cases i with
  | ldStVx x => exact ⟨x, rfl⟩
  | _ => simp [writesOf] at h

theorem exec_dt_of_not_written {i : Instr} {s t : State} (hi : ∀ x, i ≠ .ldDtVx x) (h : exec i s = .next t) :
    t.dt = s.dt := by
  obtain ⟨-, -, -, -, -, hdt, -⟩ := instructionsWriteOnlyTheirTargets i s t h
  exact hdt fun hmem => (dt_mem_writesOf hmem).elim hi

theorem exec_st_of_not_written {i : Instr} {s t : State} (hi : ∀ x, i ≠ .ldStVx x) (h : exec i s = .next t) :
    t.st = s.st := by
  obtain ⟨-, -, -, -, -, -, hst, -⟩ := instructionsWriteOnlyTheirTargets i s t h
  exact hst fun hmem => (st_mem_writesOf hmem).elim hi

/-! ### One executed cycle, R120 to R122 -/

section Executed

variable {s t : State}

/-- An executed cycle is the fetched instruction and then the timer block. -/
theorem Executes.eq_tickTimers (h : Executes s t) : ∃ u, exec s.fetchInstr s = .next u ∧ t = u.tickTimers := by
  obtain ⟨hawake, hstep, hrun⟩ := h
  obtain ⟨u, hu⟩ := exec_completes s.fetchInstr s
  obtain rfl : u.endCycle = t := by simpa [step_awake s u hawake hu] using hstep
  exact ⟨u, hu, State.endCycle_running u (by simpa using hrun)⟩

theorem Executes.toNat_dt_of_ldDtVx {x : Nibble} (h : Executes s t) (hi : s.fetchInstr = .ldDtVx x) :
    t.dt.toNat = (s.reg x).toNat - 1 := by
  obtain ⟨u, hu, rfl⟩ := h.eq_tickTimers
  rw [hi] at hu
  cases hu
  exact toNat_countdown _

theorem Executes.toNat_st_of_ldStVx {x : Nibble} (h : Executes s t) (hi : s.fetchInstr = .ldStVx x) :
    t.st.toNat = (s.reg x).toNat - 1 := by
  obtain ⟨u, hu, rfl⟩ := h.eq_tickTimers
  rw [hi] at hu
  cases hu
  exact toNat_countdown _

theorem Executes.toNat_dt_of_not_written (h : Executes s t) (hi : ∀ x, s.fetchInstr ≠ .ldDtVx x) :
    t.dt.toNat = s.dt.toNat - 1 := by
  obtain ⟨u, hu, rfl⟩ := h.eq_tickTimers
  rw [State.tickTimers_dt, toNat_countdown, exec_dt_of_not_written hi hu]

theorem Executes.toNat_st_of_not_written (h : Executes s t) (hi : ∀ x, s.fetchInstr ≠ .ldStVx x) :
    t.st.toNat = s.st.toNat - 1 := by
  obtain ⟨u, hu, rfl⟩ := h.eq_tickTimers
  rw [State.tickTimers_st, toNat_countdown, exec_st_of_not_written hi hu]

end Executed

/-- A tick that does not execute an instruction to completion, being suspended or raising a fault, changes at most
`FAULT` (R64, R137, R143). -/
theorem step_eq_setFault_of_not_executed {s t : State} (h : step s = .next t)
    (hne : s.suspended = true ∨ t.fault ≠ .running) : t = s.setFault t.fault := by
  obtain ⟨-, rfl⟩ | ⟨hawake, u, hu, rfl⟩ := step_cases s t h
  · rfl
  · have hfault : u.fault ≠ .running := by simpa [hawake] using hne
    obtain ⟨hrun, -⟩ := (State.suspended_eq_false s).mp hawake
    rw [State.endCycle_faulted u hfault]
    exact exec_eq_setFault_of_faulted hrun hu hfault

/-- Settles O10: an executed cycle by whether its instruction writes the timer; any other tick changes at most
`FAULT`. -/
theorem timersCountExecutedCycles : Obligations.TimersCountExecutedCycles := by
  refine fun s t h => ⟨fun hawake hrun => ?_, fun hne => ?_⟩
  · have hexec : Executes s t := ⟨hawake, h, hrun⟩
    exact ⟨fun _ => hexec.toNat_dt_of_ldDtVx, hexec.toNat_dt_of_not_written,
      fun _ => hexec.toNat_st_of_ldStVx, hexec.toNat_st_of_not_written⟩
  · rw [step_eq_setFault_of_not_executed h hne]
    exact ⟨rfl, rfl⟩

/-! ### Executed cycles in a row, R121, R123 -/

/-- A timer that each executed cycle counts down by one is down by `k` after `k` of them, and not below 0. -/
theorem ExecutesFor.toNat_timer {P : State → Prop} {timer : State → Byte}
    (hcycle : ∀ s u, P s → Executes s u → (timer u).toNat = (timer s).toNat - 1) {k : Nat} {s t : State}
    (h : ExecutesFor P k s t) : (timer t).toNat = (timer s).toNat - k := by
  induction k generalizing s with
  | zero => cases h; rfl
  | succ k ih =>
    obtain ⟨u, hP, hexec, hrest⟩ := h
    rw [ih hrest, hcycle s u hP hexec, Nat.sub_sub, Nat.add_comm]

theorem State.soundActive_iff (s : State) : s.soundActive = true ↔ 0 < s.st.toNat := by
  rw [State.soundActive, bne_iff_ne]
  bv_omega

/-- Settles O11: both timers by the same induction on the cycles; the sound follows `ST`. -/
theorem timerReachesZeroAfterItsCount : Obligations.TimerReachesZeroAfterItsCount := by
  refine fun k s t => ⟨fun h => ?_,
    fun h => h.toNat_timer (timer := State.dt) fun _ _ hi hexec => hexec.toNat_dt_of_not_written hi⟩
  have hst : t.st.toNat = s.st.toNat - k :=
    h.toNat_timer (timer := State.st) fun _ _ hi hexec => hexec.toNat_st_of_not_written hi
  exact ⟨hst, by rw [State.soundActive_iff, hst, Nat.sub_pos_iff_lt]⟩

/-! ### The timer transfers, R124 to R126 -/

/-- A tick that fetches an instruction which raises no fault is that instruction and then the timer block. -/
theorem step_of_fetchInstr {i : Instr} {s t : State} (hawake : s.suspended = false) (hi : s.fetchInstr = i)
    (hn : faultRaised i s = none) (he : exec i s = .next t) : step s = .next t.tickTimers := by
  obtain ⟨hrun, -⟩ := (State.suspended_eq_false s).mp hawake
  exact step_of_exec_running hawake (hi ▸ he) ((exec_fault_of_not_raised hn he).trans hrun)

/-- Settles O52: the three transfers, then for each the tick that fetches it. -/
theorem timerTransfers : Obligations.TimerTransfers := by
  refine fun x s => ⟨decode_encode (i := .ldVxDt x) rfl, decode_encode (i := .ldDtVx x) rfl,
    decode_encode (i := .ldStVx x) rfl, exec_setReg_spec (P := (· = s.dt)) rfl rfl,
    ⟨_, rfl, rfl, rfl, (Frame.refl.setDt _ (by simp)).advance⟩,
    ⟨_, rfl, rfl, rfl, (Frame.refl.setSt _ (by simp)).advance⟩,
    fun hawake hi => ?_, fun hawake hi => ?_, fun hawake hi => ?_⟩
  · have hreg : (s.setReg x s.dt).reg x = s.dt := by simp
    exact ⟨_, step_of_fetchInstr hawake hi rfl rfl, hreg, toNat_countdown _⟩
  · exact ⟨_, step_of_fetchInstr hawake hi rfl rfl, toNat_countdown _⟩
  · have hst : (s.setSt (s.reg x)).advance.tickTimers.st.toNat = (s.reg x).toNat - 1 := toNat_countdown _
    exact ⟨_, step_of_fetchInstr hawake hi rfl rfl, hst, by rw [State.soundActive_iff, hst, Nat.sub_pos_iff_lt]⟩

/-! ### The keypad, R129 to R132 -/

/-- The key index is `V[x]` modulo 16 (R131). -/
theorem State.keyHeld_lowNibble (s : State) (b : Byte) :
    s.keyHeld (lowNibble b) = s.keys.getLsbD (b.toNat % 16) := by
  simp [State.keyHeld, lowNibble]

/-- Settles O53. -/
theorem keySkips : Obligations.KeySkips :=
  fun x s => ⟨decode_encode (i := .skp x) rfl, decode_encode (i := .sknp x) rfl,
    exec_skipIf_spec (by rw [State.keyHeld_lowNibble]) rfl,
    exec_skipIf_spec (by rw [Bool.not_eq_true', State.keyHeld_lowNibble]) rfl⟩

/-- Settles O32: the key wait raises its fault in every state. -/
theorem keyWaitFaults : Obligations.KeyWaitFaults :=
  fun x _ => ⟨decode_encode (i := .ldVxK x) rfl, exec_of_faultRaised rfl,
    fun hawake hi => step_of_faultRaised hawake (hi ▸ rfl)⟩

end Sys2Proof.Machine
end

section
/-! PROOFS. Faults and the host ports (60_exceptions.md R134 to R148): which fault an instruction's cycle raises, what that
cycle changes, and what the ports set and answer. -/

namespace Sys2Proof.Machine

open Sys2Proof

/-! ### The state a fault leaves, R137, R143 -/

/-- Settles O13: the step lemma of the invariant that O14 keeps along every host event. -/
theorem tickKeepsFaultExplained : Obligations.TickKeepsFaultExplained :=
  fun _ _ => step_keeps_faultExplained

/-- Settles O8: a tick that ends with a fault recorded has executed no instruction to completion. -/
theorem faultingCycleChangesOnlyFault : Obligations.FaultingCycleChangesOnlyFault :=
  fun _ _ _ h hne => step_eq_setFault_of_not_executed h (.inr hne)

/-! ### Which fault is raised when, R134 to R142 -/

/-- A cycle that begins with no fault records exactly the fault that the fetched instruction raises. -/
theorem step_fault_eq_iff {s t : State} {c : FaultCode} (hawake : s.suspended = false) (h : step s = .next t)
    (hc : c ≠ .running) : t.fault = c ↔ faultRaised s.fetchInstr s = some c := by
  cases hraised : faultRaised s.fetchInstr s with
  | none =>
    obtain ⟨u, hu⟩ := exec_completes s.fetchInstr s
    obtain ⟨hrun, -⟩ := (State.suspended_eq_false s).mp hawake
    obtain rfl : u.endCycle = t := by simpa [step_awake s u hawake hu] using h
    simp [exec_fault_of_not_raised hraised hu, hrun, hc.symm]
  | some d =>
    obtain rfl : s.setFault d = t := by simpa [step_of_faultRaised hawake hraised] using h
    simp

section Raised

variable (i : Instr) (s : State)

theorem faultRaised_eq_stackUnderflow_iff : faultRaised i s = some .stackUnderflow ↔ i = .ret ∧ s.sp.val = 0 := by
  cases i <;> simp [faultRaised]

theorem faultRaised_eq_stackOverflow_iff :
    faultRaised i s = some .stackOverflow ↔ (∃ nnn, i = .call nnn) ∧ s.sp.val = 16 := by
  cases i <;> simp [faultRaised]

theorem faultRaised_eq_unimplementedSys_iff : faultRaised i s = some .unimplementedSys ↔ ∃ nnn, i = .sys nnn := by
  cases i <;> simp [faultRaised]

theorem faultRaised_eq_unimplementedKeyWait_iff :
    faultRaised i s = some .unimplementedKeyWait ↔ ∃ x, i = .ldVxK x := by
  cases i <;> simp [faultRaised]

/-- `Create` alone records a load error (R140). -/
theorem faultRaised_ne_loadError : faultRaised i s ≠ some .loadError := by
  cases i <;> simp [faultRaised]

end Raised

/-- Settles O9: each code by when the fetched instruction raises it. -/
theorem faultCausesAreExact : Obligations.FaultCausesAreExact := by
  intro s t hrun hpaused h
  have hfault : ∀ c, c ≠ .running → (t.fault = c ↔ faultRaised s.fetchInstr s = some c) :=
    fun c => step_fault_eq_iff ((State.suspended_eq_false s).mpr ⟨hrun, hpaused⟩) h
  exact ⟨(hfault _ (by decide)).trans (faultRaised_eq_stackUnderflow_iff _ s),
    (hfault _ (by decide)).trans (faultRaised_eq_stackOverflow_iff _ s),
    (hfault _ (by decide)).trans (faultRaised_eq_unimplementedSys_iff _ s),
    (hfault _ (by decide)).trans (faultRaised_eq_unimplementedKeyWait_iff _ s),
    (hfault _ (by decide)).not.mpr (faultRaised_ne_loadError _ s)⟩

/-! ### The read port, R106, R145 -/

/-- The bits that the read port gives for a list of rows, the first row lowest. -/
def rowsBits (rows : List (BitVec 64)) : BitVec 2048 :=
  rows.foldr (fun row acc => acc <<< 64 ||| row.setWidth 2048) 0

theorem Display.bits_eq (d : Display) : d.bits = rowsBits d.toList := rfl

theorem rowsBits_cons (row : BitVec 64) (rows : List (BitVec 64)) :
    rowsBits (row :: rows) = rowsBits rows <<< 64 ||| row.setWidth 2048 := rfl

/-- Row `j` stands at the 64 bits from `64 * j` on, as far as these are below 2048. -/
theorem getLsbD_rowsBits {rows : List (BitVec 64)} {j k : Nat} (hj : j < rows.length) (hk : k < 64)
    (hlt : 64 * j + k < 2048) : (rowsBits rows).getLsbD (64 * j + k) = rows[j].getLsbD k := by
  induction rows generalizing j with
  | nil => simp at hj
  | cons row rows ih =>
    rw [rowsBits_cons, BitVec.getLsbD_or, BitVec.getLsbD_shiftLeft, BitVec.getLsbD_setWidth]
    cases j with
    | zero => simp [hk, show k < 2048 by omega]
    | succ j =>
      have hrow : row.getLsbD (64 * (j + 1) + k) = false := BitVec.getLsbD_of_ge _ _ (by omega)
      have hsub : 64 * (j + 1) + k - 64 = 64 * j + k := by omega
      simp [hrow, hsub, hlt, show ¬ 64 * (j + 1) + k < 64 by omega,
        ih (Nat.lt_of_succ_lt_succ hj) (by omega)]

/-- Settles O51: the row of a pixel has its 64 bits in the answer, and the pixel its bit among them. -/
theorem readPortShowsEveryPixel : Obligations.ReadPortShowsEveryPixel := by
  refine fun s px py => ⟨rfl, ?_, rfl⟩
  rw [Display.bits_eq, getLsbD_rowsBits (by simp) px.isLt (by omega)]
  rfl

/-! ### The other ports, R134, R146 to R148 -/

/-- The sound output is the test of `ST` against 0 (R123). -/
theorem State.soundActive_eq_decide (s : State) : s.soundActive = decide (s.st ≠ 0) := by
  rw [Bool.eq_iff_iff, State.soundActive, bne_iff_ne, decide_eq_true_iff]

/-- Settles O57: each port by its definition, in every state; the fault answer by the recorded code. -/
theorem hostPortsWork : Obligations.HostPortsWork := by
  refine fun k b s => ⟨rfl, rfl, rfl, congrArg Answer.sound s.soundActive_eq_decide, rfl, s.fault.bits, rfl, ?_⟩
  cases s.fault <;> rfl

end Sys2Proof.Machine
end

section
/-! PROOFS. Create (70_reset_and_hazards.md R153 to R156): the memory it establishes, the state for an image that fits, and
the halted state for one that does not. -/

namespace Sys2Proof.Machine

open Sys2Proof

/-! ### The memory of Create, R154 -/

/-- The font table has no byte from address 80 on. -/
theorem font_getD_of_le (font : Vector Byte 80) {a : Nat} (ha : 80 ≤ a) : font.toList.getD a 0 = 0 :=
  List.getD_eq_default _ _ (by simp [ha])

/-- The font alone, before any image byte: its 80 bytes, and zero from there on, as an unlisted address reads. -/
theorem Memory.read_createMemory_nil (font : Vector Byte 80) (a : Nat) :
    (createMemory font []).read a = font.toList.getD a 0 := by
  have hread : (createMemory font []).read a =
      if 0 ≤ a ∧ a < 0 + font.toList.length then font.toList.getD (a - 0) 0 else Memory.unlisted a :=
    Memory.read_writeBytes font.toList [] 0 Memory.wf_nil (by simp) a
  by_cases ha : a < 80
  · simpa [ha] using hread
  · have hlo : 80 ≤ a := Nat.le_of_not_lt ha
    rw [hread, if_neg (by simp [hlo]), Memory.unlisted_above_font hlo, font_getD_of_le font hlo]

/-- The image stands from `0x200` on; every other address reads as with the font alone. -/
theorem Memory.read_createMemory (font : Vector Byte 80) {image : List Byte}
    (h : image.length ≤ Config.maxProgLen) (a : Nat) :
    (createMemory font image).read a =
      if 0x200 ≤ a ∧ a < 0x200 + image.length then image.getD (a - 0x200) 0 else font.toList.getD a 0 := by
  have hfits : Config.progBase + image.length ≤ Config.memSize := by
    simp only [Config.maxProgLen, Config.progBase, Config.memSize] at *; omega
  rw [← Memory.read_createMemory_nil]
  exact Memory.read_writeBytes image (createMemory font []) _ (wf_createMemory font [] (Nat.zero_le _)) hfits a

/-! ### The state of Create -/

/-- An image that fits: the reset state but its memory and the host's draws (R154). -/
theorem createWith_of_fits (font : Vector Byte 80) {image : List Byte} (s : State)
    (h : image.length ≤ Config.maxProgLen) :
    createWith font image s = { State.reset with mem := createMemory font image, draws := s.draws } :=
  if_pos h

/-- An image that does not fit: no byte of it is copied, and the state is halted (R155). -/
theorem createWith_of_too_long (font : Vector Byte 80) {image : List Byte} (s : State)
    (h : Config.maxProgLen < image.length) :
    createWith font image s = (createWith font [] s).setFault .loadError :=
  if_neg (Nat.not_le.mpr h)

/-- Create reads nothing of the state before it but the host's draws (R156). -/
theorem createWith_congr (font : Vector Byte 80) (image : List Byte) {s t : State} (h : t.draws = s.draws) :
    createWith font image t = createWith font image s := by
  simp only [createWith, h]

/-- Create keeps the host's draws (R153). -/
theorem createWith_draws (font : Vector Byte 80) (image : List Byte) (s : State) :
    (createWith font image s).draws = s.draws := by
  unfold createWith
  split <;> rfl

/-- What an address below 4096 reads as after Create with an image that fits. -/
theorem createWith_memRead (font : Vector Byte 80) {image : List Byte} (s : State)
    (h : image.length ≤ Config.maxProgLen) {a : Nat} (ha : a < 4096) :
    (createWith font image s).memRead a =
      if 0x200 ≤ a ∧ a < 0x200 + image.length then image.getD (a - 0x200) 0 else font.toList.getD a 0 := by
  have hcell : cellOf a = a := Nat.mod_eq_of_lt ha
  rw [createWith_of_fits font s h, State.memRead, hcell, Memory.read_createMemory font h]

/-- Outside the image an address reads as the font has it: its byte below `0x050`, zero from there on. -/
theorem createWith_memRead_outside (font : Vector Byte 80) {image : List Byte} (s : State)
    (h : image.length ≤ Config.maxProgLen) {a : Nat} (ha : a < 4096) (hout : a < 0x200 ∨ 0x200 + image.length ≤ a) :
    (createWith font image s).memRead a = font.toList.getD a 0 := by
  rw [createWith_memRead font s h ha, if_neg (by omega)]

/-- Settles O55: the memory address by address, and every other part as the reset state has it. -/
theorem createLoadsTheImage : Obligations.CreateLoadsTheImage := by
  intro font image s hlen
  have hstate := createWith_of_fits font s hlen
  refine ⟨fun a ha => ?font, fun a hlo hhi => ?gap, fun k hk => ?image, fun a hlo hhi => ?above,
    ?regs, ?stack, ?pixels, ?rest, rfl⟩
  case font => exact createWith_memRead_outside font s hlen (by omega) (.inl (by omega))
  case gap => exact (createWith_memRead_outside font s hlen (by omega) (.inl hhi)).trans (font_getD_of_le font hlo)
  case image => rw [createWith_memRead font s hlen (by omega), if_pos (by omega), Nat.add_sub_cancel_left]
  case above => exact (createWith_memRead_outside font s hlen hhi (.inr hlo)).trans (font_getD_of_le font (by omega))
  case regs => rw [hstate]; exact State.reset_reg
  case stack => rw [hstate]; exact State.reset_stack
  case pixels => rw [hstate]; exact Display.pixel_clear
  case rest => rw [hstate]; rfl

/-! ### An image that does not fit, R155 -/

/-- Settles O56: the recorded fault halts the machine, and the next Create reads nothing but the draws, which are kept. -/
theorem oversizedImageIsALoadError : Obligations.OversizedImageIsALoadError := by
  intro font image s hlen
  have hstate := createWith_of_too_long font s hlen
  have hfault : (createWith font image s).fault ≠ .running := by simp [hstate]
  exact ⟨hstate, rfl, step_suspended _ ((State.suspended_eq_true _).mpr (.inl hfault)),
    fun image' _ => createWith_congr font image' (createWith_draws font image s)⟩

end Sys2Proof.Machine
end
